-- ==== Sys2Proof/Word.lean ====
section
/-!
DEFINITION. The word types of the Krester: 32-bit registers, bytes, and the 96-bit instruction word (R51).
-/
namespace Sys2Proof

/-- A byte (R9). -/
abbrev Byte := BitVec 8

/-- A 32-bit register value, a lane mask or a code address (R29, R52, R238). -/
abbrev Word := BitVec 32

/-- A 64-bit value, held in an even-odd pair of registers (R30). -/
abbrev DWord := BitVec 64

/-- One instruction word (R51). -/
abbrev InsnWord := BitVec 96

end Sys2Proof
end

