-- ==== Sys2Proof/Syntax.lean ====
section
/-!
DEFINITION. The Krester's operations as data: the operand, modifier and head fields of an instruction word (R51 to R75)
and `Instr`, one constructor per row of spec/opcode_table.json. Rows that are instruction words carry the word's
decoded fields; rows that are events of another agent carry the names of what the event acts on, or what the outside
world sends.
-/
namespace Sys2Proof

/-- Type codes (R68). -/
inductive Ty where
  | i32 | i8 | i16 | i64 | i4 | n32 | n8 | n16 | n64 | n4
  | f32 | f64 | f16 | bf16 | e4m3 | e5m2 | e3m2 | e2m3 | e2m1
  | mxe4m3 | mxe5m2 | mxe3m2 | mxe2m3 | mxe2m1 | mxi8 | lum2 | lum4 | lum7
  deriving DecidableEq, Repr

/-- Rounding codes (R69, R91). -/
inductive Rnd where
  | rne | rtz | rdn | rup | rna | rfmt
  deriving DecidableEq, Repr

/-- Scope codes (R69, R196). -/
inductive Scope where
  | beam | team | cluster | dev | sys
  deriving DecidableEq, Repr

/-- Ordering codes (R69). -/
inductive Ordr where
  | rlx | acq | rel | ar
  deriving DecidableEq, Repr

/-- Special registers, in the order of R54. -/
inductive Spr where
  | tid | lane | beam | team | core | cyc | ext0 | ext1 | ext2 | emask | ekind | tcause | tpc | taddr | part | fmt
  deriving DecidableEq, Repr

/-- Operand fields (R54). Reserved field values have no constructor. -/
inductive Opnd where
  | v (n : BitVec 8)
  | c (n : BitVec 6)
  | m (n : BitVec 4)
  | p (n : BitVec 3)
  | q (n : BitVec 3)
  | spr (r : Spr)
  | imm
  | none
  deriving DecidableEq, Repr

/-- Next-address selectors (R59). -/
inductive Nas where
  | seq | jmp | jix | call | ret | exit
  deriving DecidableEq, Repr

/-- The fields that every instruction word carries (R51). -/
structure Head where
  nas   : Nas
  gneg  : Bool
  gidx  : BitVec 3
  uni   : Bool
  wa    : Bool
  wb    : Bool
  wc    : Bool
  reuse : Bool
  yld   : Bool
  d     : Opnd
  a     : Opnd
  b     : Opnd
  c     : Opnd
  imm   : BitVec 20
  deriving DecidableEq, Repr

/-- Layout A (R70). -/
structure ModA where
  ty  : Ty
  rnd : Rnd
  sat : Bool
  sub : BitVec 3
  deriving DecidableEq, Repr

/-- Layout B, with the rounding code of the function bits (R71). -/
structure ModB where
  dty : Ty
  sty : Ty
  rnd : Rnd
  sat : Bool
  deriving DecidableEq, Repr

/-- Layout M of the scratchpad loads and stores (R72). COUNT is kept as written. -/
structure ModM where
  ty    : Ty
  count : BitVec 2
  ord   : Ordr
  scope : Scope
  deriving DecidableEq, Repr

/-- Layout M of `lda` and `str` (R72, R219). -/
structure ModG where
  ty      : Ty
  promote : Bool
  ord     : Ordr
  scope   : Scope
  deriving DecidableEq, Repr

/-- The operations of the atomics (R72, R215). -/
inductive AtomOp where
  | add | min | max | and | or | xor | swap | cswap | fmin | fmax
  deriving DecidableEq, Repr

/-- Layout MA, with the ordering code of the function bits (R72). -/
structure ModMA where
  ty    : Ty
  op    : AtomOp
  scope : Scope
  ord   : Ordr
  deriving DecidableEq, Repr

/-- Layout X (R73): SIZE or DIMS as written, and DIR (true: out of the scratchpad). -/
structure ModX where
  size : BitVec 2
  out  : Bool
  deriving DecidableEq, Repr

/-- Layout S of `fence` (R74, R229). ORDER 00 and 11 are the full fence. -/
structure ModF where
  ord   : Ordr
  scope : Scope
  deriving DecidableEq, Repr

/-- The combines of `solicit` (R74, R313). -/
inductive Comb where
  | addI64 | addF32 | maxF32 | minF32 | or | count | first
  deriving DecidableEq, Repr

/-- A port of the package: Ultra Ethernet 0 to 7 or CXL 0 to 15 (R15). -/
structure Port where
  cxl   : Bool
  index : Nat
  deriving DecidableEq, Repr

/-- A management request as it arrived: the association that carried it, its 64-byte header and its payload (R355). -/
structure MReq where
  assoc  : Nat
  header : BitVec 512
  body   : List Byte
  deriving DecidableEq, Repr

/-- What an association packet that is not a management request asks for (R347, R354). -/
inductive Remote where
  /-- Bytes written at virtual addresses through leaves with HOST, row by row (R347, R390). -/
  | rows (rows : List (Nat × List Byte))
  /-- Bytes read at a virtual address. -/
  | read (va len : Nat)
  /-- An atomic operation of another device on a 4-byte or 8-byte word, with its data and compare value (R216, R218). -/
  | atomic (op : AtomOp) (ty : Ty) (va : Nat) (val cmp : BitVec 64)
  /-- Bytes written at an offset of the virtual device's anchor, which is not translated (R347). -/
  | anchor (off : Nat) (bytes : List Byte)
  deriving DecidableEq, Repr

/-- The payload of an association packet (R354, R355). -/
inductive Payload where
  | mgmt (header : BitVec 512) (body : List Byte)
  | remote (r : Remote)
  deriving DecidableEq, Repr

/-- An association packet as a port receives it (R354): whether its tag verifies is what the AES-GCM check of the
received bytes says. -/
structure Packet where
  assoc   : Nat
  number  : Nat
  tagOk   : Bool
  port    : Nat
  payload : Payload
  deriving DecidableEq, Repr

/-- The operations of the Krester, one constructor per row of spec/opcode_table.json. -/
inductive Instr where
  /-- R113: Adds A, B and optional C with wrap or saturation to the type width. -/
  | add (h : Head) (m : ModA)
  /-- R113: Subtracts B from A with wrap or saturation. -/
  | sub (h : Head) (m : ModA)
  /-- R113: Writes the carry out of A + B + (C mod 2) as 0 or 1. -/
  | addc (h : Head) (m : ModA)
  /-- R113: Multiplies A by B, keeping the low bits or saturating. -/
  | mul (h : Head) (m : ModA)
  /-- R113: Writes the high word of the exact product of A and B. -/
  | mulhi (h : Head) (m : ModA)
  /-- R113: Computes A × B + C as one exact sum, then wraps or saturates. -/
  | mad (h : Head) (m : ModA)
  /-- R114: Divides with truncation toward zero, emptying D until the quotient arrives; never traps. -/
  | div (h : Head) (m : ModA)
  /-- R114: Computes the truncated remainder, emptying D until it arrives. -/
  | rem (h : Head) (m : ModA)
  /-- R115: Writes the lesser of A and B by typed value. -/
  | min (h : Head) (m : ModA)
  /-- R115: Writes the greater of A and B by typed value. -/
  | max (h : Head) (m : ModA)
  /-- R115: Writes the absolute value of A, wrapping or saturating. -/
  | abs (h : Head) (m : ModA)
  /-- R115: Writes the negation of A, wrapping or saturating. -/
  | neg (h : Head) (m : ModA)
  /-- R116: Bitwise AND of values, or logical AND of predicates. -/
  | and (h : Head) (m : ModA)
  /-- R116: Bitwise OR of values, or logical OR of predicates. -/
  | or (h : Head) (m : ModA)
  /-- R116: Bitwise XOR of values, or logical XOR of predicates. -/
  | xor (h : Head) (m : ModA)
  /-- R116: Computes A AND NOT B on values or predicates. -/
  | andn (h : Head) (m : ModA)
  /-- R117: Shifts A left by the count in B. -/
  | shl (h : Head) (m : ModA)
  /-- R117: Shifts A right logically by the count in B. -/
  | shr (h : Head) (m : ModA)
  /-- R117: Shifts A right arithmetically by the count in B. -/
  | sar (h : Head) (m : ModA)
  /-- R117: Rotates A left by the count in B, taken mod w. -/
  | rot (h : Head) (m : ModA)
  /-- R118: Counts the leading zero bits of A. -/
  | clz (h : Head) (m : ModA)
  /-- R118: Counts the trailing zero bits of A. -/
  | ctz (h : Head) (m : ModA)
  /-- R118: Counts the one bits of A. -/
  | popc (h : Head) (m : ModA)
  /-- R118: Reverses the bit order of A. -/
  | brev (h : Head) (m : ModA)
  /-- R118: Extracts a bit field from A, sign- or zero-extended. -/
  | bfx (h : Head) (m : ModA)
  /-- R118: Inserts the low bits of A into a field of D. -/
  | bfi (h : Head) (m : ModA)
  /-- R119: Computes a 64-bit address from a base plus a scaled index. -/
  | lea (h : Head) (m : ModA)
  /-- R120: Selects A or B by the predicate in C. -/
  | sel (h : Head) (m : ModA)
  /-- R120: Compares two integers and writes a predicate. -/
  | cmp (h : Head) (m : ModA)
  /-- R121: Copies a value or predicate with its bits unchanged. -/
  | mov (h : Head) (m : ModA)
  /-- R121: Writes the sign-extended immediate. -/
  | movi (h : Head) (m : ModA)
  /-- R121: Replaces bits [31:20] of D with IMM[11:0]. -/
  | movh (h : Head) (m : ModA)
  /-- R121: Sign- or zero-extends the low w bits of A. -/
  | ext (h : Head) (m : ModA)
  /-- R123: Adds floating values with one rounding. -/
  | fadd (h : Head) (m : ModA)
  /-- R123: Subtracts floating values with one rounding. -/
  | fsub (h : Head) (m : ModA)
  /-- R123: Multiplies floating values with one rounding. -/
  | fmul (h : Head) (m : ModA)
  /-- R123: Computes the fused a × b + c with one rounding. -/
  | fma (h : Head) (m : ModA)
  /-- R123: Multiplies A by 2 to the integer B, with one rounding. -/
  | fscale (h : Head) (m : ModA)
  /-- R123: Rounds A to an integral value in the selected mode. -/
  | frint (h : Head) (m : ModA)
  /-- R124: Takes minimumNumber of A and B. -/
  | fmin (h : Head) (m : ModA)
  /-- R124: Takes maximumNumber of A and B. -/
  | fmax (h : Head) (m : ModA)
  /-- R124: Takes IEEE minimum of A and B, propagating NaN. -/
  | fminm (h : Head) (m : ModA)
  /-- R124: Takes IEEE maximum of A and B, propagating NaN. -/
  | fmaxm (h : Head) (m : ModA)
  /-- R125: Compares floating values and writes a predicate. -/
  | fcmp (h : Head) (m : ModA)
  /-- R126: Writes a one-hot class mask of A without the marker check. -/
  | fclass (h : Head) (m : ModA)
  /-- R127: Correctly rounded division; D is empty until the result fills. -/
  | fdiv (h : Head) (m : ModA)
  /-- R127: Correctly rounded reciprocal; D is empty until the result fills. -/
  | frcp (h : Head) (m : ModA)
  /-- R127: Correctly rounded square root; D is empty until the result fills. -/
  | fsqrt (h : Head) (m : ModA)
  /-- R127: Correctly rounded reciprocal square root; D is empty until the result fills. -/
  | frsq (h : Head) (m : ModA)
  /-- R127: Correctly rounded 2^a; D is empty until the result fills. -/
  | fexp2 (h : Head) (m : ModA)
  /-- R127: Correctly rounded log2 a; D is empty until the result fills. -/
  | flog2 (h : Head) (m : ModA)
  /-- R127: Correctly rounded sine; D is empty until the result fills. -/
  | fsin (h : Head) (m : ModA)
  /-- R127: Correctly rounded cosine; D is empty until the result fills. -/
  | fcos (h : Head) (m : ModA)
  /-- R127: Correctly rounded hyperbolic tangent; D is empty until the result fills. -/
  | ftanh (h : Head) (m : ModA)
  /-- R128: Converts one scalar element between formats. -/
  | cvt (h : Head) (m : ModB)
  /-- R129: Quantises an element times an FP32 scale, with one rounding. -/
  | cvtq (h : Head) (m : ModB)
  /-- R129: Dequantises an element times an FP32 scale, with one rounding. -/
  | cvtd (h : Head) (m : ModB)
  /-- R130: Forms an exact two-element dot product plus addend, rounded once. -/
  | dot2 (h : Head) (m : ModB)
  /-- R130: Forms an exact four-element dot product plus addend, rounded once. -/
  | dot4 (h : Head) (m : ModB)
  /-- R130: Forms an exact eight-element dot product plus addend, rounded once. -/
  | dot8 (h : Head) (m : ModB)
  /-- R131: Builds MX or Lumen blocks across lane groups. -/
  | packb (h : Head) (m : ModB)
  /-- R132: Decodes MX or Lumen block images across lanes into FP32. -/
  | unpackb (h : Head) (m : ModB)
  /-- R157: Sets a matrix register's shape and tag and reinterprets its bytes. -/
  | mshape (h : Head) (m : ModA)
  /-- R157: Gives a matrix register a shape and tag with every element zero. -/
  | mzero (h : Head) (m : ModA)
  /-- R158: Fills every element of a matrix register with one value. -/
  | mfill (h : Head) (m : ModA)
  /-- R159: Loads a matrix register's image from the scratchpad. -/
  | mld (h : Head) (m : ModA)
  /-- R159: Stores a matrix register's image to the scratchpad. -/
  | mst (h : Head) (m : ModA)
  /-- R160: Reads one matrix element into a v register. -/
  | mget (h : Head) (m : ModA)
  /-- R160: Writes one matrix element from a value. -/
  | mset (h : Head) (m : ModA)
  /-- R161: Copies a matrix register's shape, tag and image. -/
  | mmov (h : Head) (m : ModA)
  /-- R161: Transposes a matrix register. -/
  | mtrn (h : Head) (m : ModA)
  /-- R162: Converts every element of a matrix to another format. -/
  | mcvt (h : Head) (m : ModB)
  /-- R163: Computes D = A × B + C per thread with the fixed order of sums. -/
  | mma (h : Head) (m : ModA)
  /-- R164: Computes a structured-sparse product using per-lane metadata. -/
  | mmasp (h : Head) (m : ModA)
  /-- R165: Adds or subtracts two matrices element-wise. -/
  | madd (h : Head) (m : ModA)
  /-- R165: Forms the element-wise product of two matrices. -/
  | mhad (h : Head) (m : ModA)
  /-- R166: Reduces each row or column of a matrix. -/
  | mred (h : Head) (m : ModA)
  /-- R168: Inverts a square matrix by Gauss-Jordan elimination, raising SING on a zero pivot. -/
  | minv (h : Head) (m : ModA)
  /-- R169: Factors P × A = L × U and writes the permutation. -/
  | mlu (h : Head) (m : ModA)
  /-- R170: Computes the Cholesky factor, raising NPD on a non-positive pivot. -/
  | mchol (h : Head) (m : ModA)
  /-- R171: Solves A × X = B by pivoted elimination. -/
  | msolve (h : Head) (m : ModA)
  /-- R172: Computes the matrix exponential by scaling and squaring. -/
  | mexp (h : Head) (m : ModA)
  /-- R173: Sets the issuing path's FMT register. -/
  | fmt (h : Head)
  /-- R146: A prism instruction completes: destinations fill, %emask and %ekind update, and the matrix trap is taken if due. -/
  | prismComplete (id misses : Nat)
  /-- R266: Gives each thread a value from a source lane within its tile. -/
  | shfl (h : Head) (m : ModA)
  /-- R267: Combines a predicate or value over the executing threads of a tile or path. -/
  | vote (h : Head) (m : ModA)
  /-- R268: Reduces A over the executing threads of each tile. -/
  | redLane (h : Head) (m : ModA)
  /-- R268: Computes an inclusive prefix reduction within each tile. -/
  | scan (h : Head) (m : ModA)
  /-- R269: Sets the issuing path's PART tile width. -/
  | part (h : Head) (m : ModA)
  /-- R270: Selects one executing thread of each tile by rank. -/
  | lead (h : Head) (m : ModA)
  /-- R271: Maps item indices to rows across a tile by prefix sums. -/
  | rebal (h : Head) (m : ModA)
  /-- R272: Selects the top k logits and writes their indices and softmax weights. -/
  | topk (h : Head) (m : ModA)
  /-- R214: Loads bytes from the scratchpad into v registers. -/
  | ld (h : Head) (m : ModM)
  /-- R214: Stores v registers to the scratchpad. -/
  | st (h : Head) (m : ModM)
  /-- R214: Loads bytes from the scratchpad into c registers, once for the path. -/
  | lds (h : Head) (m : ModM)
  /-- R214: Stores c registers to the scratchpad, once for the path. -/
  | sts (h : Head) (m : ModM)
  /-- R216: Performs a scratchpad atomic read-modify-write and returns the old value. -/
  | atoms (h : Head) (m : ModMA)
  /-- R216: Performs a scratchpad atomic reduction with no return. -/
  | reds (h : Head) (m : ModMA)
  /-- R221: Starts per-lane copies between global memory and the scratchpad, emptying the status pair. -/
  | copy (h : Head) (m : ModX)
  /-- R224: Starts a strided bulk copy described by eight c registers. -/
  | bcopy (h : Head) (m : ModX)
  /-- R222: Starts per-lane copies from a neighbour core's scratchpad in the cluster. -/
  | ncopy (h : Head) (m : ModX)
  /-- R220: Loads 4 or 8 bytes from a global address. -/
  | lda (h : Head) (m : ModG)
  /-- R220: Stores 4 or 8 bytes to a global address. -/
  | str (h : Head) (m : ModG)
  /-- R227: Writes a shape variable of the launch's context. -/
  | svst (h : Head)
  /-- R216: Performs a global atomic at the home die and returns the old value. -/
  | atom (h : Head) (m : ModMA)
  /-- R216: Performs a global atomic reduction at the home die with no return. -/
  | redGlobal (h : Head) (m : ModMA)
  /-- R229: Orders the path's marked accesses at a scope. -/
  | fence (h : Head) (m : ModF)
  /-- R231: Tests an arrival counter and sleeps the beam until it reaches the target. -/
  | wait (h : Head)
  /-- R230: Adds to an arrival counter of the own core or of a cluster neighbour. -/
  | arrive (h : Head)
  /-- R232: Takes the beam out of the ready set for n die cycles. -/
  | sleep (h : Head)
  /-- R275: Makes the beam arrive at a team barrier generation. -/
  | bar (h : Head)
  /-- R275: Makes the beam arrive at a cluster barrier generation. -/
  | cbar (h : Head)
  /-- R277: Marks the beam triggered toward its launch's trigger event. -/
  | trigger (h : Head)
  /-- R278: Appends one record per thread to a successor's spawn bin, parking on full storage. -/
  | spawn (h : Head)
  /-- R278: Appends records to a spawn bin, clearing the predicate of each refused thread. -/
  | spawnTry (h : Head)
  /-- R320: Installs a valid directory entry at the lowest free index. -/
  | dirput (h : Head)
  /-- R321: Frees a directory entry and returns a code. -/
  | dirdel (h : Head)
  /-- R322: Starts a two-phase move of a directory entry to another core. -/
  | dirmove (h : Head)
  /-- R323: Reads a 32-byte directory entry into eight registers. -/
  | dirq (h : Head)
  /-- R324: Starts a census for a key and mask, or is refused. -/
  | solicit (h : Head) (m : Comb)
  /-- R325: Sends the responder's value to its census. -/
  | respond (h : Head)
  /-- R255: Has no effect of its own and carries any next-address selector. -/
  | nop (h : Head)
  /-- R256: Pushes a joinat entry onto the reconvergence stack. -/
  | joinat (h : Head)
  /-- R257: Marks a jump-table landing pad and has no effect. -/
  | lpad (h : Head)
  /-- R260: Starts loading an overlay into an instruction-store slot. -/
  | ovl (h : Head)
  /-- R263: Raises the breakpoint trap after completion. -/
  | brk (h : Head)
  /-- R372: Completes and raises the software trap with code n. -/
  | trap (h : Head)
  /-- R373: Leaves handler mode and restores the frozen paths. -/
  | rte (h : Head)
  /-- R374: Copies a special register into a v or c register. -/
  | sread (h : Head)
  /-- R375: Writes the writable fields of a special register. -/
  | swrite (h : Head)
  /-- R376: Saves the beam's state to a save block once its registers are full. -/
  | ctxsv (h : Head)
  /-- R378: Restores a beam from its save block and gathers the team to resume. -/
  | ctxld (h : Head)
  /-- R379: Removes the oldest error-queue entry or reads the counters. -/
  | errq (h : Head)
  /-- R380: Kills the issuing team or every team of its launch. -/
  | kill (h : Head)
  /-- R64: The result of an instruction that empties its destination arrives, and the destination fills. -/
  | registerFill (id : Nat)
  /-- R189: A copy finishes writing or failing, and its status fills or is dropped by generation tag. -/
  | copyStatusFill (id : Nat) (refused : List Nat)
  /-- R260: An overlay load ends; the slot holds the overlay or is emptied, and the status fills. -/
  | ovlLoadComplete (id : Nat)
  /-- R259: The command processor loads a kernel's entry overlay into slot 0 before a team issues. -/
  | entryOverlayLoad (core : Nat)
  /-- R191: An arrival reaches a counter, and the waiters whose condition now holds are woken. -/
  | arrivalCounterIncrement (id : Nat)
  /-- R232: A sleeping beam's cycle count expires, and the beam becomes ready. -/
  | sleepExpiry (core slot : Nat)
  /-- R250: Room appears in a bin, and a parked spawn retries its remaining lanes. -/
  | spawnRetry (core slot : Nat)
  /-- R249: A spawn bin's coalescing timer expires while the bin holds records. -/
  | coalescingTimerExpiry (vd graph node : Nat)
  /-- R249: A bin starts a team once its condition holds and a record array is free. -/
  | binTeamStart (vd graph node : Nat)
  /-- R193: A page walk finishes and delivers its result to every waiting access. -/
  | pageWalkComplete (id : Nat)
  /-- R206: Another device acknowledges a write, allowing delayed sys releases to be performed. -/
  | remoteWriteAck (id : Nat) (refused : Bool)
  /-- R307: A solicit at the router takes the lowest free census slot, waiting if none is free. -/
  | censusSlotTaken (vd : Nat)
  /-- R308: A census arrives at a core, which scans its directory and spawns responders. -/
  | censusScan (vd slot core : Nat)
  /-- R309: A responder beam is placed in free room on its core. -/
  | responderPlace (core : Nat)
  /-- R310: A responder's bound expires, ending it as an error. -/
  | responderBoundExpiry (id : Nat)
  /-- R311: A core sends its done report once its scan and pending move acks allow. -/
  | doneReport (vd slot core : Nat)
  /-- R313: A response or error reaches the router and is combined. -/
  | responseCombine (vd slot id : Nat)
  /-- R312: The router clears the answered bits, fills the result registers and frees the slot. -/
  | censusClose (vd slot : Nat)
  /-- R314: A move request reaches the destination, which reserves an entry or refuses. -/
  | moveReserve (id : Nat)
  /-- R314: The grant or refusal reaches the source, which commits the entry or reverts it. -/
  | moveCommit (id : Nat)
  /-- R314: The commit reaches the destination, which installs and tests the entry and sends the ack. -/
  | moveInstall (id : Nat)
  /-- R314: The ack reaches the source, which counts credited spawns and fills the move status. -/
  | moveAck (id : Nat)
  /-- R282: A TAIL write maps an unmapped queue to a command-processor thread, unmapping another if needed. -/
  | queueMap (vd queue : Nat)
  /-- R280: A write or completion re-tests a blocked command-processor thread. -/
  | watchedWordRetest (thread : Nat)
  /-- R283: A nop packet is consumed with no effect. -/
  | nopPacket (vd queue : Nat)
  /-- R285: A launch packet is read and queued for dispatch. -/
  | launchPacket (vd queue : Nat)
  /-- R283: A copy packet starts moving LEN bytes from SRC to DST. -/
  | copyPacket (vd queue : Nat)
  /-- R301: A packet copy finishes or fails, and its status word is written. -/
  | copyPacketComplete (id : Nat) (refusedAt : Option (Nat × Bool))
  /-- R283: A wait-value packet tests a masked word and blocks until the condition holds. -/
  | waitValuePacket (vd queue : Nat)
  /-- R283: A signal packet writes or adds a value once earlier work has completed. -/
  | signalPacket (vd queue : Nat)
  /-- R283: A set-shape packet sets or adds a shape variable. -/
  | setShapePacket (vd queue : Nat)
  /-- R290: A graph packet reads a graph image and allocates its spill areas and pools. -/
  | graphPacket (vd queue : Nat)
  /-- R283: A bind-warm packet binds a warm-start slot to two buffers at phase 0. -/
  | bindWarmPacket (vd queue : Nat)
  /-- R283: A deadline packet sets the deadline of the queue's next launch. -/
  | deadlinePacket (vd queue : Nat)
  /-- R283: A barrier packet holds the queue until earlier work completes. -/
  | barrierPacket (vd queue : Nat)
  /-- R297: A launch whose dependences are satisfied is dispatched, numbered, judged and evaluated. -/
  | launchDispatch (vd launch : Nat)
  /-- R291: A graph node whose edges are satisfied is dispatched, or is skipped. -/
  | graphNodeDispatch (vd graph node : Nat)
  /-- R292: A pending or saved team is placed on a free core by priority and deficit round-robin. -/
  | teamPlace (vd launch team core : Nat)
  /-- R293: A die's regulator reports stable, releasing a held team. -/
  | regulatorStable (die : Nat)
  /-- R294: A team's time slice expires while another queue's team waits. -/
  | sliceExpiry (core : Nat)
  /-- R294: The command processor pre-empts a chosen victim team, which it discards or saves. -/
  | preempt (core : Nat)
  /-- R295: A discarded team's incoming copies complete, and the team returns to pending. -/
  | discardComplete (vd launch team : Nat)
  /-- R296: Every beam's ctxsv completes, and the team becomes saved. -/
  | saveComplete (vd launch team : Nat)
  /-- R296: A save misses 70,000 die cycles, and the launch ends with SAVEFAIL. -/
  | saveTimeout (vd launch team : Nat)
  /-- R297: A draining launch's copies finish; its status word and job record are written. -/
  | launchDone (vd launch : Nat)
  /-- R299: A launch's deadline expires, killing its teams. -/
  | deadlineExpiry (vd launch : Nat)
  /-- R300: A queue's watchdog expires, trapping parked spawns or killing launches. -/
  | watchdogExpiry (vd queue : Nat)
  /-- R365: Room appears in the record ring, and kept records are written in SEQ order. -/
  | jobRecordFlush (vd : Nat)
  /-- R332: A virtual device's idle count reaches its threshold, and collapse starts. -/
  | idleThreshold (vd : Nat)
  /-- R335: All collapse steps of the class are done, and the device is collapsed. -/
  | collapseComplete (vd : Nat)
  /-- R336: A write to a line with its wake bit set sends wake notices. -/
  | wakeWrite (line : Nat)
  /-- R336: A governor agent receives a wake notice and starts waking and counting. -/
  | wakeNotice (vd die : Nat)
  /-- R335: The wake steps finish, and the virtual device becomes awake. -/
  | wakeComplete (vd : Nat)
  /-- R340: The wake count passes the class bound, and a wake fault is reported. -/
  | wakeFault (vd cycles : Nat)
  /-- R26: The power governor lowers a die's operating point near its limit. -/
  | operatingPointLower (die point : Nat)
  /-- R389: A retired core hands its number and directory to a spare, or empties its position. -/
  | coreRetirement (core : Nat)
  /-- R354: An Ultra Ethernet association packet arrives and is checked, dropped or acted on. -/
  | associationPacketReceive (pkt : Packet)
  /-- R354: An association agrees or replaces its AES-256-GCM key. -/
  | associationKeyAgreement (assoc : Nat) (host : BitVec 512) (salt : BitVec 32) (verified : Bool)
  /-- R353: The management processor refreshes a CXL port's IDE stream keys. -/
  | ideKeyRefresh (port : Nat)
  /-- R353: A CXL port reports an integrity failure or leaves the secure state. -/
  | cxlIntegrityFailure (port : Nat)
  /-- R392: A port's corrected-error rate exceeds its threshold, and the port is re-calibrated. -/
  | portRecalibrate (port : Port)
  /-- R392: A port is not re-established within its bound and has failed. -/
  | portFail (port : Port)
  /-- R393: A CXL device is added while the package runs. -/
  | cxlDeviceAdd (port base gib : Nat)
  /-- R391: The package powers up: the package key is generated, no queue is read, and an election opens. -/
  | powerUp
  /-- R359: The election window ends, and the valid claim with the lowest index wins. -/
  | electionClose
  /-- R360: No owner request arrives for 2^31 cycles, and an election opens. -/
  | ownerLoss
  /-- R328: Management OP 0x01 creates a virtual device from its descriptor. -/
  | createVirtualDevice (req : MReq)
  /-- R352: Management OP 0x02 destroys a virtual device and scrubs its resources. -/
  | destroyVirtualDevice (req : MReq)
  /-- R351: Management OP 0x03 installs a key set and returns its handle. -/
  | installKeySet (req : MReq)
  /-- R344: Management OP 0x04 sets a virtual device's page-table root. -/
  | setPtroot (req : MReq)
  /-- R349: Management OP 0x05 invalidates translations over a range. -/
  | invalidateRange (req : MReq)
  /-- R349: An invalidation's drops, walks and accesses finish, and its response is sent. -/
  | invalidateComplete (id : Nat)
  /-- R348: Management OP 0x06 writes a peer entry. -/
  | writePeerEntry (req : MReq)
  /-- R354: Management OP 0x07 binds an association to the management path or a virtual device. -/
  | bindAssociation (req : MReq)
  /-- R303: Management OP 0x08 verifies and loads a Ploviz container. -/
  | loadContainer (req : MReq)
  /-- R303: Management OP 0x09 unloads a container and releases its ids. -/
  | unloadContainer (req : MReq)
  /-- R281: Management OP 0x0A create makes a queue from its descriptor. -/
  | createQueue (req : MReq)
  /-- R284: Management OP 0x0A delete unmaps and forgets an idle queue. -/
  | deleteQueue (req : MReq)
  /-- R284: Management OP 0x0A resume returns a halted queue to service at HEAD. -/
  | resumeQueue (req : MReq)
  /-- R284: Management OP 0x0A reset sets HEAD to TAIL and STATUS to running. -/
  | resetQueue (req : MReq)
  /-- R365: Management OP 0x0B sets or unsets the job-record ring. -/
  | setRecordRing (req : MReq)
  /-- R362: Management OP 0x0C create makes a shared pooled range. -/
  | createSharedRange (req : MReq)
  /-- R362: Management OP 0x0C grant gives a virtual device read or read-write access to a shared range. -/
  | grantSharedRange (req : MReq)
  /-- R362: Management OP 0x0C revoke withdraws a grant as an invalidation. -/
  | revokeSharedRange (req : MReq)
  /-- R362: Management OP 0x0C delete removes a shared range with no grants. -/
  | deleteSharedRange (req : MReq)
  /-- R391: Management OP 0x0D verifies new command-processor firmware for named threads. -/
  | updateFirmware (req : MReq)
  /-- R391: A named thread switches firmware once its queue has no launch short of Done. -/
  | firmwareSwitch (thread : Nat)
  /-- R359: Management OP 0x0E set enters a host key digest in the authorised list. -/
  | setAuthorisedDigest (req : MReq)
  /-- R359: Management OP 0x0E clear removes a digest from the authorised list. -/
  | clearAuthorisedDigest (req : MReq)
  /-- R360: Management OP 0x0F names the host to receive ownership. -/
  | handOverOwnership (req : MReq)
  /-- R336: Management OP 0x10 wakes a virtual device. -/
  | wakeRequest (req : MReq)
  /-- R289: Management OP 0x11 zeroes a context's shape variables. -/
  | resetContext (req : MReq)
  /-- R358: Management OP 0x20 returns temperatures, power, owner and the election challenge. -/
  | readPackageStatus (req : MReq)
  /-- R357: Management OP 0x21 returns deviation-ring entries. -/
  | readDeviationRing (req : MReq)
  /-- R365: Management OP 0x22 returns job records by SEQ and advances CONSUMED. -/
  | readJobRecords (req : MReq)
  /-- R359: Management OP 0x30 submits a signed claim in the election. -/
  | claimOwnership (req : MReq)
  /-- R360: Management OP 0x31 accepts a handover and moves ownership. -/
  | acceptHandover (req : MReq)
  /-- R245: A global write or read-modify-write in flight is performed at its home die, where it becomes visible and may release delayed arrivals, fences and arrival-word updates. -/
  | globalWritePerformed (id : Nat)
  /-- R283: The command processor reads a packet of KIND 0xA to 0xF, or its ring read faults, and halts the queue with STATUS 0x01. -/
  | badPacket (vd queue : Nat)
  /-- R79: A beam issues a word whose group or function is unassigned, such as the all-ones word beyond an overlay's length, and takes the illegal-instruction trap. -/
  | illegalInstruction (reason : BitVec 8)
  /-- R259: A path comes to issue at a code address whose overlay is not resident, and the beam takes control-flow fault 0x18. -/
  | nonresidentOverlayIssue
  /-- R392: A port under re-calibration, or one that failed or left the secure state, is re-established and carries traffic again. -/
  | portReestablished (port : Port)
  deriving DecidableEq, Repr

end Sys2Proof
end

