-- ==== Sys2Proof/Machine/Entry.lean ====
section
/-!
DEFINITION. The entries of the instruction words: opcodes (R53, R77), the modifier values an entry permits, and what each
operand position permits, names, reads and writes (R55, R110 to R132, R151, R213 to R228, R254, R264, R274, R319, R371).
The decoder checks words against these entries, and issue reads from them which registers a word waits for (R64), which
it checks for launch markers (R97) and which for poison (R385).
-/
namespace Sys2Proof

/-- The mnemonics that are instruction words. -/
inductive Op where
  | add | sub | addc | mul | mulhi | mad | div | rem | min | max | abs | neg | and | or | xor | andn | shl
  | shr | sar | rot | clz | ctz | popc | brev | bfx | bfi | lea | sel | cmp | mov | movi | movh | ext | fadd
  | fsub | fmul | fma | fmin | fmax | fminm | fmaxm | fcmp | fclass | fdiv | frcp | fsqrt | frsq | fexp2
  | flog2 | fsin | fcos | ftanh | fscale | frint | cvt | cvtq | cvtd | dot2 | dot4 | dot8 | packb | unpackb
  | mshape | mzero | mfill | mld | mst | mget | mset | mmov | mcvt | mma | mmasp | mtrn | madd | mhad | minv
  | mlu | mchol | msolve | mexp | mred | shfl | vote | redLane | scan | part | lead | rebal | topk | ld | st
  | lds | sts | atoms | reds | copy | bcopy | ncopy | lda | str | svst | atom | redGlobal | fence | bar
  | cbar | wait | arrive | trigger | spawn | spawnTry | sleep | dirput | dirdel | dirmove | dirq | solicit
  | respond | nop | joinat | lpad | ovl | brk | trap | rte | sread | swrite | fmt | ctxsv | ctxld | errq
  | kill
  deriving DecidableEq, Repr

/-- The modifier fields of a word, by layout (R70 to R75). -/
inductive Mods where
  | none
  | a (m : ModA)
  | b (m : ModB)
  | m (m : ModM)
  | g (m : ModG)
  | ma (m : ModMA)
  | x (m : ModX)
  | f (m : ModF)
  | c (m : Comb)
  deriving DecidableEq, Repr

/-- The modifier layouts (R70 to R75); `zero` is the MOD that is res0. -/
inductive Layout where
  | a | b | m | g | ma | x | f | c | zero
  deriving DecidableEq, Repr

/-- The modifier layout of each mnemonic (R70 to R75). -/
def Op.layout : Op → Layout
  | .add | .sub | .addc | .mul | .mulhi | .mad | .div | .rem | .min | .max | .abs | .neg | .and | .or | .xor
  | .andn | .shl | .shr | .sar | .rot | .clz | .ctz | .popc | .brev | .bfx | .bfi | .lea | .sel | .cmp | .mov
  | .movi | .movh | .ext | .fadd | .fsub | .fmul | .fma | .fmin | .fmax | .fminm | .fmaxm | .fcmp | .fclass
  | .fdiv | .frcp | .fsqrt | .frsq | .fexp2 | .flog2 | .fsin | .fcos | .ftanh | .fscale | .frint | .mshape
  | .mzero | .mfill | .mld | .mst | .mget | .mset | .mmov | .mma | .mmasp | .mtrn | .madd | .mhad | .minv
  | .mlu | .mchol | .msolve | .mexp | .mred | .shfl | .vote | .redLane | .scan | .part | .lead | .rebal
  | .topk => .a
  | .cvt | .cvtq | .cvtd | .dot2 | .dot4 | .dot8 | .packb | .unpackb | .mcvt => .b
  | .ld | .st | .lds | .sts => .m
  | .atoms | .reds | .atom | .redGlobal => .ma
  | .copy | .bcopy | .ncopy => .x
  | .lda | .str => .g
  | .svst | .bar | .cbar | .wait | .arrive | .trigger | .spawn | .spawnTry | .sleep | .dirput | .dirdel
  | .dirmove | .dirq | .respond | .nop | .joinat | .lpad | .ovl | .brk | .trap | .rte | .sread | .swrite
  | .fmt | .ctxsv | .ctxld | .errq | .kill => .zero
  | .fence => .f
  | .solicit => .c

/-- Group and function of R77. Where the low function bits hold a rounding or ordering code (R71, R72), this is the
function with those bits zero. -/
def Op.code : Op → Nat
  | .add => 0x000
  | .sub => 0x001
  | .addc => 0x002
  | .mul => 0x003
  | .mulhi => 0x004
  | .mad => 0x005
  | .div => 0x006
  | .rem => 0x007
  | .min => 0x008
  | .max => 0x009
  | .abs => 0x00A
  | .neg => 0x00B
  | .and => 0x00C
  | .or => 0x00D
  | .xor => 0x00E
  | .andn => 0x00F
  | .shl => 0x010
  | .shr => 0x011
  | .sar => 0x012
  | .rot => 0x013
  | .clz => 0x014
  | .ctz => 0x015
  | .popc => 0x016
  | .brev => 0x017
  | .bfx => 0x018
  | .bfi => 0x019
  | .lea => 0x01A
  | .sel => 0x01B
  | .cmp => 0x01C
  | .mov => 0x01D
  | .movi => 0x01E
  | .movh => 0x01F
  | .ext => 0x020
  | .fadd => 0x040
  | .fsub => 0x041
  | .fmul => 0x042
  | .fma => 0x043
  | .fmin => 0x044
  | .fmax => 0x045
  | .fminm => 0x046
  | .fmaxm => 0x047
  | .fcmp => 0x048
  | .fclass => 0x049
  | .fdiv => 0x04A
  | .frcp => 0x04B
  | .fsqrt => 0x04C
  | .frsq => 0x04D
  | .fexp2 => 0x04E
  | .flog2 => 0x04F
  | .fsin => 0x050
  | .fcos => 0x051
  | .ftanh => 0x052
  | .fscale => 0x053
  | .frint => 0x054
  | .cvt => 0x080
  | .cvtq => 0x088
  | .cvtd => 0x090
  | .dot2 => 0x098
  | .dot4 => 0x0A0
  | .dot8 => 0x0A8
  | .packb => 0x0B0
  | .unpackb => 0x0B8
  | .mshape => 0x0C0
  | .mzero => 0x0C1
  | .mfill => 0x0C2
  | .mld => 0x0C3
  | .mst => 0x0C4
  | .mget => 0x0C5
  | .mset => 0x0C6
  | .mmov => 0x0C7
  | .mcvt => 0x0C8
  | .mma => 0x0D0
  | .mmasp => 0x0D1
  | .mtrn => 0x0D2
  | .madd => 0x0D3
  | .mhad => 0x0D4
  | .minv => 0x0D5
  | .mlu => 0x0D6
  | .mchol => 0x0D7
  | .msolve => 0x0D8
  | .mexp => 0x0D9
  | .mred => 0x0DA
  | .shfl => 0x100
  | .vote => 0x101
  | .redLane => 0x102
  | .scan => 0x103
  | .part => 0x104
  | .lead => 0x105
  | .rebal => 0x106
  | .topk => 0x107
  | .ld => 0x140
  | .st => 0x141
  | .lds => 0x142
  | .sts => 0x143
  | .atoms => 0x144
  | .reds => 0x145
  | .copy => 0x180
  | .bcopy => 0x181
  | .ncopy => 0x182
  | .lda => 0x183
  | .str => 0x184
  | .svst => 0x185
  | .atom => 0x188
  | .redGlobal => 0x18C
  | .fence => 0x1C0
  | .bar => 0x1C1
  | .cbar => 0x1C2
  | .wait => 0x1C3
  | .arrive => 0x1C4
  | .trigger => 0x1C5
  | .spawn => 0x1C6
  | .spawnTry => 0x1C6
  | .sleep => 0x1C7
  | .dirput => 0x200
  | .dirdel => 0x201
  | .dirmove => 0x202
  | .dirq => 0x203
  | .solicit => 0x204
  | .respond => 0x205
  | .nop => 0x240
  | .joinat => 0x241
  | .lpad => 0x242
  | .ovl => 0x243
  | .brk => 0x244
  | .trap => 0x280
  | .rte => 0x281
  | .sread => 0x282
  | .swrite => 0x283
  | .fmt => 0x284
  | .ctxsv => 0x285
  | .ctxld => 0x286
  | .errq => 0x287
  | .kill => 0x288

/-- The mnemonic, head and modifiers of an instruction word; `none` for the rows that are events. -/
def Instr.view : Instr → Option (Op × Head × Mods)
  | .add h m => some (.add, h, .a m)
  | .sub h m => some (.sub, h, .a m)
  | .addc h m => some (.addc, h, .a m)
  | .mul h m => some (.mul, h, .a m)
  | .mulhi h m => some (.mulhi, h, .a m)
  | .mad h m => some (.mad, h, .a m)
  | .div h m => some (.div, h, .a m)
  | .rem h m => some (.rem, h, .a m)
  | .min h m => some (.min, h, .a m)
  | .max h m => some (.max, h, .a m)
  | .abs h m => some (.abs, h, .a m)
  | .neg h m => some (.neg, h, .a m)
  | .and h m => some (.and, h, .a m)
  | .or h m => some (.or, h, .a m)
  | .xor h m => some (.xor, h, .a m)
  | .andn h m => some (.andn, h, .a m)
  | .shl h m => some (.shl, h, .a m)
  | .shr h m => some (.shr, h, .a m)
  | .sar h m => some (.sar, h, .a m)
  | .rot h m => some (.rot, h, .a m)
  | .clz h m => some (.clz, h, .a m)
  | .ctz h m => some (.ctz, h, .a m)
  | .popc h m => some (.popc, h, .a m)
  | .brev h m => some (.brev, h, .a m)
  | .bfx h m => some (.bfx, h, .a m)
  | .bfi h m => some (.bfi, h, .a m)
  | .lea h m => some (.lea, h, .a m)
  | .sel h m => some (.sel, h, .a m)
  | .cmp h m => some (.cmp, h, .a m)
  | .mov h m => some (.mov, h, .a m)
  | .movi h m => some (.movi, h, .a m)
  | .movh h m => some (.movh, h, .a m)
  | .ext h m => some (.ext, h, .a m)
  | .fadd h m => some (.fadd, h, .a m)
  | .fsub h m => some (.fsub, h, .a m)
  | .fmul h m => some (.fmul, h, .a m)
  | .fma h m => some (.fma, h, .a m)
  | .fmin h m => some (.fmin, h, .a m)
  | .fmax h m => some (.fmax, h, .a m)
  | .fminm h m => some (.fminm, h, .a m)
  | .fmaxm h m => some (.fmaxm, h, .a m)
  | .fcmp h m => some (.fcmp, h, .a m)
  | .fclass h m => some (.fclass, h, .a m)
  | .fdiv h m => some (.fdiv, h, .a m)
  | .frcp h m => some (.frcp, h, .a m)
  | .fsqrt h m => some (.fsqrt, h, .a m)
  | .frsq h m => some (.frsq, h, .a m)
  | .fexp2 h m => some (.fexp2, h, .a m)
  | .flog2 h m => some (.flog2, h, .a m)
  | .fsin h m => some (.fsin, h, .a m)
  | .fcos h m => some (.fcos, h, .a m)
  | .ftanh h m => some (.ftanh, h, .a m)
  | .fscale h m => some (.fscale, h, .a m)
  | .frint h m => some (.frint, h, .a m)
  | .cvt h m => some (.cvt, h, .b m)
  | .cvtq h m => some (.cvtq, h, .b m)
  | .cvtd h m => some (.cvtd, h, .b m)
  | .dot2 h m => some (.dot2, h, .b m)
  | .dot4 h m => some (.dot4, h, .b m)
  | .dot8 h m => some (.dot8, h, .b m)
  | .packb h m => some (.packb, h, .b m)
  | .unpackb h m => some (.unpackb, h, .b m)
  | .mshape h m => some (.mshape, h, .a m)
  | .mzero h m => some (.mzero, h, .a m)
  | .mfill h m => some (.mfill, h, .a m)
  | .mld h m => some (.mld, h, .a m)
  | .mst h m => some (.mst, h, .a m)
  | .mget h m => some (.mget, h, .a m)
  | .mset h m => some (.mset, h, .a m)
  | .mmov h m => some (.mmov, h, .a m)
  | .mcvt h m => some (.mcvt, h, .b m)
  | .mma h m => some (.mma, h, .a m)
  | .mmasp h m => some (.mmasp, h, .a m)
  | .mtrn h m => some (.mtrn, h, .a m)
  | .madd h m => some (.madd, h, .a m)
  | .mhad h m => some (.mhad, h, .a m)
  | .minv h m => some (.minv, h, .a m)
  | .mlu h m => some (.mlu, h, .a m)
  | .mchol h m => some (.mchol, h, .a m)
  | .msolve h m => some (.msolve, h, .a m)
  | .mexp h m => some (.mexp, h, .a m)
  | .mred h m => some (.mred, h, .a m)
  | .shfl h m => some (.shfl, h, .a m)
  | .vote h m => some (.vote, h, .a m)
  | .redLane h m => some (.redLane, h, .a m)
  | .scan h m => some (.scan, h, .a m)
  | .part h m => some (.part, h, .a m)
  | .lead h m => some (.lead, h, .a m)
  | .rebal h m => some (.rebal, h, .a m)
  | .topk h m => some (.topk, h, .a m)
  | .ld h m => some (.ld, h, .m m)
  | .st h m => some (.st, h, .m m)
  | .lds h m => some (.lds, h, .m m)
  | .sts h m => some (.sts, h, .m m)
  | .atoms h m => some (.atoms, h, .ma m)
  | .reds h m => some (.reds, h, .ma m)
  | .copy h m => some (.copy, h, .x m)
  | .bcopy h m => some (.bcopy, h, .x m)
  | .ncopy h m => some (.ncopy, h, .x m)
  | .lda h m => some (.lda, h, .g m)
  | .str h m => some (.str, h, .g m)
  | .svst h => some (.svst, h, .none)
  | .atom h m => some (.atom, h, .ma m)
  | .redGlobal h m => some (.redGlobal, h, .ma m)
  | .fence h m => some (.fence, h, .f m)
  | .bar h => some (.bar, h, .none)
  | .cbar h => some (.cbar, h, .none)
  | .wait h => some (.wait, h, .none)
  | .arrive h => some (.arrive, h, .none)
  | .trigger h => some (.trigger, h, .none)
  | .spawn h => some (.spawn, h, .none)
  | .spawnTry h => some (.spawnTry, h, .none)
  | .sleep h => some (.sleep, h, .none)
  | .dirput h => some (.dirput, h, .none)
  | .dirdel h => some (.dirdel, h, .none)
  | .dirmove h => some (.dirmove, h, .none)
  | .dirq h => some (.dirq, h, .none)
  | .solicit h m => some (.solicit, h, .c m)
  | .respond h => some (.respond, h, .none)
  | .nop h => some (.nop, h, .none)
  | .joinat h => some (.joinat, h, .none)
  | .lpad h => some (.lpad, h, .none)
  | .ovl h => some (.ovl, h, .none)
  | .brk h => some (.brk, h, .none)
  | .trap h => some (.trap, h, .none)
  | .rte h => some (.rte, h, .none)
  | .sread h => some (.sread, h, .none)
  | .swrite h => some (.swrite, h, .none)
  | .fmt h => some (.fmt, h, .none)
  | .ctxsv h => some (.ctxsv, h, .none)
  | .ctxld h => some (.ctxld, h, .none)
  | .errq h => some (.errq, h, .none)
  | .kill h => some (.kill, h, .none)
  | .prismComplete _ _ => none
  | .registerFill _ => none
  | .copyStatusFill _ _ => none
  | .ovlLoadComplete _ => none
  | .entryOverlayLoad _ => none
  | .arrivalCounterIncrement _ => none
  | .sleepExpiry _ _ => none
  | .spawnRetry _ _ => none
  | .coalescingTimerExpiry _ _ _ => none
  | .binTeamStart _ _ _ => none
  | .pageWalkComplete _ => none
  | .remoteWriteAck _ _ => none
  | .censusSlotTaken _ => none
  | .censusScan _ _ _ => none
  | .responderPlace _ => none
  | .responderBoundExpiry _ => none
  | .doneReport _ _ _ => none
  | .responseCombine _ _ _ => none
  | .censusClose _ _ => none
  | .moveReserve _ => none
  | .moveCommit _ => none
  | .moveInstall _ => none
  | .moveAck _ => none
  | .queueMap _ _ => none
  | .watchedWordRetest _ => none
  | .nopPacket _ _ => none
  | .launchPacket _ _ => none
  | .copyPacket _ _ => none
  | .copyPacketComplete _ _ => none
  | .waitValuePacket _ _ => none
  | .signalPacket _ _ => none
  | .setShapePacket _ _ => none
  | .graphPacket _ _ => none
  | .bindWarmPacket _ _ => none
  | .deadlinePacket _ _ => none
  | .barrierPacket _ _ => none
  | .launchDispatch _ _ => none
  | .graphNodeDispatch _ _ _ => none
  | .teamPlace _ _ _ _ => none
  | .regulatorStable _ => none
  | .sliceExpiry _ => none
  | .preempt _ => none
  | .discardComplete _ _ _ => none
  | .saveComplete _ _ _ => none
  | .saveTimeout _ _ _ => none
  | .launchDone _ _ => none
  | .deadlineExpiry _ _ => none
  | .watchdogExpiry _ _ => none
  | .jobRecordFlush _ => none
  | .idleThreshold _ => none
  | .collapseComplete _ => none
  | .wakeWrite _ => none
  | .wakeNotice _ _ => none
  | .wakeComplete _ => none
  | .wakeFault _ _ => none
  | .operatingPointLower _ _ => none
  | .coreRetirement _ => none
  | .associationPacketReceive _ => none
  | .associationKeyAgreement _ _ _ _ => none
  | .ideKeyRefresh _ => none
  | .cxlIntegrityFailure _ => none
  | .portRecalibrate _ => none
  | .portFail _ => none
  | .cxlDeviceAdd _ _ _ => none
  | .powerUp => none
  | .electionClose => none
  | .ownerLoss => none
  | .createVirtualDevice _ => none
  | .destroyVirtualDevice _ => none
  | .installKeySet _ => none
  | .setPtroot _ => none
  | .invalidateRange _ => none
  | .invalidateComplete _ => none
  | .writePeerEntry _ => none
  | .bindAssociation _ => none
  | .loadContainer _ => none
  | .unloadContainer _ => none
  | .createQueue _ => none
  | .deleteQueue _ => none
  | .resumeQueue _ => none
  | .resetQueue _ => none
  | .setRecordRing _ => none
  | .createSharedRange _ => none
  | .grantSharedRange _ => none
  | .revokeSharedRange _ => none
  | .deleteSharedRange _ => none
  | .updateFirmware _ => none
  | .firmwareSwitch _ => none
  | .setAuthorisedDigest _ => none
  | .clearAuthorisedDigest _ => none
  | .handOverOwnership _ => none
  | .wakeRequest _ => none
  | .resetContext _ => none
  | .readPackageStatus _ => none
  | .readDeviationRing _ => none
  | .readJobRecords _ => none
  | .claimOwnership _ => none
  | .acceptHandover _ => none
  | .globalWritePerformed _ => none
  | .badPacket _ _ => none
  | .illegalInstruction _ => none
  | .nonresidentOverlayIssue => none
  | .portReestablished _ => none

/-- The instructions of layout A. -/
def Op.buildA (h : Head) (m : ModA) : Op → Option Instr
  | .add => some (.add h m)
  | .sub => some (.sub h m)
  | .addc => some (.addc h m)
  | .mul => some (.mul h m)
  | .mulhi => some (.mulhi h m)
  | .mad => some (.mad h m)
  | .div => some (.div h m)
  | .rem => some (.rem h m)
  | .min => some (.min h m)
  | .max => some (.max h m)
  | .abs => some (.abs h m)
  | .neg => some (.neg h m)
  | .and => some (.and h m)
  | .or => some (.or h m)
  | .xor => some (.xor h m)
  | .andn => some (.andn h m)
  | .shl => some (.shl h m)
  | .shr => some (.shr h m)
  | .sar => some (.sar h m)
  | .rot => some (.rot h m)
  | .clz => some (.clz h m)
  | .ctz => some (.ctz h m)
  | .popc => some (.popc h m)
  | .brev => some (.brev h m)
  | .bfx => some (.bfx h m)
  | .bfi => some (.bfi h m)
  | .lea => some (.lea h m)
  | .sel => some (.sel h m)
  | .cmp => some (.cmp h m)
  | .mov => some (.mov h m)
  | .movi => some (.movi h m)
  | .movh => some (.movh h m)
  | .ext => some (.ext h m)
  | .fadd => some (.fadd h m)
  | .fsub => some (.fsub h m)
  | .fmul => some (.fmul h m)
  | .fma => some (.fma h m)
  | .fmin => some (.fmin h m)
  | .fmax => some (.fmax h m)
  | .fminm => some (.fminm h m)
  | .fmaxm => some (.fmaxm h m)
  | .fcmp => some (.fcmp h m)
  | .fclass => some (.fclass h m)
  | .fdiv => some (.fdiv h m)
  | .frcp => some (.frcp h m)
  | .fsqrt => some (.fsqrt h m)
  | .frsq => some (.frsq h m)
  | .fexp2 => some (.fexp2 h m)
  | .flog2 => some (.flog2 h m)
  | .fsin => some (.fsin h m)
  | .fcos => some (.fcos h m)
  | .ftanh => some (.ftanh h m)
  | .fscale => some (.fscale h m)
  | .frint => some (.frint h m)
  | .mshape => some (.mshape h m)
  | .mzero => some (.mzero h m)
  | .mfill => some (.mfill h m)
  | .mld => some (.mld h m)
  | .mst => some (.mst h m)
  | .mget => some (.mget h m)
  | .mset => some (.mset h m)
  | .mmov => some (.mmov h m)
  | .mma => some (.mma h m)
  | .mmasp => some (.mmasp h m)
  | .mtrn => some (.mtrn h m)
  | .madd => some (.madd h m)
  | .mhad => some (.mhad h m)
  | .minv => some (.minv h m)
  | .mlu => some (.mlu h m)
  | .mchol => some (.mchol h m)
  | .msolve => some (.msolve h m)
  | .mexp => some (.mexp h m)
  | .mred => some (.mred h m)
  | .shfl => some (.shfl h m)
  | .vote => some (.vote h m)
  | .redLane => some (.redLane h m)
  | .scan => some (.scan h m)
  | .part => some (.part h m)
  | .lead => some (.lead h m)
  | .rebal => some (.rebal h m)
  | .topk => some (.topk h m)
  | _ => none

/-- The instructions of layout B. -/
def Op.buildB (h : Head) (m : ModB) : Op → Option Instr
  | .cvt => some (.cvt h m)
  | .cvtq => some (.cvtq h m)
  | .cvtd => some (.cvtd h m)
  | .dot2 => some (.dot2 h m)
  | .dot4 => some (.dot4 h m)
  | .dot8 => some (.dot8 h m)
  | .packb => some (.packb h m)
  | .unpackb => some (.unpackb h m)
  | .mcvt => some (.mcvt h m)
  | _ => none

/-- The instructions of layout M. -/
def Op.buildM (h : Head) (m : ModM) : Op → Option Instr
  | .ld => some (.ld h m)
  | .st => some (.st h m)
  | .lds => some (.lds h m)
  | .sts => some (.sts h m)
  | _ => none

/-- The instructions of layout G. -/
def Op.buildG (h : Head) (m : ModG) : Op → Option Instr
  | .lda => some (.lda h m)
  | .str => some (.str h m)
  | _ => none

/-- The instructions of layout MA. -/
def Op.buildMA (h : Head) (m : ModMA) : Op → Option Instr
  | .atoms => some (.atoms h m)
  | .reds => some (.reds h m)
  | .atom => some (.atom h m)
  | .redGlobal => some (.redGlobal h m)
  | _ => none

/-- The instructions of layout X. -/
def Op.buildX (h : Head) (m : ModX) : Op → Option Instr
  | .copy => some (.copy h m)
  | .bcopy => some (.bcopy h m)
  | .ncopy => some (.ncopy h m)
  | _ => none

/-- The instructions of layout F. -/
def Op.buildF (h : Head) (m : ModF) : Op → Option Instr
  | .fence => some (.fence h m)
  | _ => none

/-- The instructions of layout C. -/
def Op.buildC (h : Head) (m : Comb) : Op → Option Instr
  | .solicit => some (.solicit h m)
  | _ => none

/-- The instructions of layout 0. -/
def Op.build0 (h : Head) : Op → Option Instr
  | .svst => some (.svst h)
  | .bar => some (.bar h)
  | .cbar => some (.cbar h)
  | .wait => some (.wait h)
  | .arrive => some (.arrive h)
  | .trigger => some (.trigger h)
  | .spawn => some (.spawn h)
  | .spawnTry => some (.spawnTry h)
  | .sleep => some (.sleep h)
  | .dirput => some (.dirput h)
  | .dirdel => some (.dirdel h)
  | .dirmove => some (.dirmove h)
  | .dirq => some (.dirq h)
  | .respond => some (.respond h)
  | .nop => some (.nop h)
  | .joinat => some (.joinat h)
  | .lpad => some (.lpad h)
  | .ovl => some (.ovl h)
  | .brk => some (.brk h)
  | .trap => some (.trap h)
  | .rte => some (.rte h)
  | .sread => some (.sread h)
  | .swrite => some (.swrite h)
  | .fmt => some (.fmt h)
  | .ctxsv => some (.ctxsv h)
  | .ctxld => some (.ctxld h)
  | .errq => some (.errq h)
  | .kill => some (.kill h)
  | _ => none

/-- The instruction of a mnemonic, a head and modifiers; `none` where the modifiers are of another layout. -/
def Op.build (op : Op) (h : Head) : Mods → Option Instr
  | .none => Op.build0 h op
  | .a m => Op.buildA h m op
  | .b m => Op.buildB h m op
  | .m m => Op.buildM h m op
  | .g m => Op.buildG h m op
  | .ma m => Op.buildMA h m op
  | .x m => Op.buildX h m op
  | .f m => Op.buildF h m op
  | .c m => Op.buildC h m op


/-- The mnemonic of an opcode (R77), and the code in its low function bits where the mnemonic has one: a rounding code
for group 0x2 and `mcvt`, an ordering code for `atom` and the global `red`. `spawn` stands for both its forms; its TRY
bit tells them apart (R274). -/
def Op.ofCode (code : Nat) : Option (Op × Nat) :=
  let grp := code / 64
  let fn := code % 64
  match grp with
  | 0 => match fn with
    | 0x00 => some (.add, 0)
    | 0x01 => some (.sub, 0)
    | 0x02 => some (.addc, 0)
    | 0x03 => some (.mul, 0)
    | 0x04 => some (.mulhi, 0)
    | 0x05 => some (.mad, 0)
    | 0x06 => some (.div, 0)
    | 0x07 => some (.rem, 0)
    | 0x08 => some (.min, 0)
    | 0x09 => some (.max, 0)
    | 0x0A => some (.abs, 0)
    | 0x0B => some (.neg, 0)
    | 0x0C => some (.and, 0)
    | 0x0D => some (.or, 0)
    | 0x0E => some (.xor, 0)
    | 0x0F => some (.andn, 0)
    | 0x10 => some (.shl, 0)
    | 0x11 => some (.shr, 0)
    | 0x12 => some (.sar, 0)
    | 0x13 => some (.rot, 0)
    | 0x14 => some (.clz, 0)
    | 0x15 => some (.ctz, 0)
    | 0x16 => some (.popc, 0)
    | 0x17 => some (.brev, 0)
    | 0x18 => some (.bfx, 0)
    | 0x19 => some (.bfi, 0)
    | 0x1A => some (.lea, 0)
    | 0x1B => some (.sel, 0)
    | 0x1C => some (.cmp, 0)
    | 0x1D => some (.mov, 0)
    | 0x1E => some (.movi, 0)
    | 0x1F => some (.movh, 0)
    | 0x20 => some (.ext, 0)
    | _ => none
  | 1 => match fn with
    | 0x00 => some (.fadd, 0)
    | 0x01 => some (.fsub, 0)
    | 0x02 => some (.fmul, 0)
    | 0x03 => some (.fma, 0)
    | 0x04 => some (.fmin, 0)
    | 0x05 => some (.fmax, 0)
    | 0x06 => some (.fminm, 0)
    | 0x07 => some (.fmaxm, 0)
    | 0x08 => some (.fcmp, 0)
    | 0x09 => some (.fclass, 0)
    | 0x0A => some (.fdiv, 0)
    | 0x0B => some (.frcp, 0)
    | 0x0C => some (.fsqrt, 0)
    | 0x0D => some (.frsq, 0)
    | 0x0E => some (.fexp2, 0)
    | 0x0F => some (.flog2, 0)
    | 0x10 => some (.fsin, 0)
    | 0x11 => some (.fcos, 0)
    | 0x12 => some (.ftanh, 0)
    | 0x13 => some (.fscale, 0)
    | 0x14 => some (.frint, 0)
    | _ => none
  | 2 => match fn with
    | 0x00 => some (.cvt, 0)
    | 0x01 => some (.cvt, 1)
    | 0x02 => some (.cvt, 2)
    | 0x03 => some (.cvt, 3)
    | 0x04 => some (.cvt, 4)
    | 0x08 => some (.cvtq, 0)
    | 0x09 => some (.cvtq, 1)
    | 0x0A => some (.cvtq, 2)
    | 0x0B => some (.cvtq, 3)
    | 0x0C => some (.cvtq, 4)
    | 0x10 => some (.cvtd, 0)
    | 0x11 => some (.cvtd, 1)
    | 0x12 => some (.cvtd, 2)
    | 0x13 => some (.cvtd, 3)
    | 0x14 => some (.cvtd, 4)
    | 0x18 => some (.dot2, 0)
    | 0x19 => some (.dot2, 1)
    | 0x1A => some (.dot2, 2)
    | 0x1B => some (.dot2, 3)
    | 0x1C => some (.dot2, 4)
    | 0x20 => some (.dot4, 0)
    | 0x21 => some (.dot4, 1)
    | 0x22 => some (.dot4, 2)
    | 0x23 => some (.dot4, 3)
    | 0x24 => some (.dot4, 4)
    | 0x28 => some (.dot8, 0)
    | 0x29 => some (.dot8, 1)
    | 0x2A => some (.dot8, 2)
    | 0x2B => some (.dot8, 3)
    | 0x2C => some (.dot8, 4)
    | 0x30 => some (.packb, 0)
    | 0x31 => some (.packb, 1)
    | 0x32 => some (.packb, 2)
    | 0x33 => some (.packb, 3)
    | 0x34 => some (.packb, 4)
    | 0x38 => some (.unpackb, 0)
    | _ => none
  | 3 => match fn with
    | 0x00 => some (.mshape, 0)
    | 0x01 => some (.mzero, 0)
    | 0x02 => some (.mfill, 0)
    | 0x03 => some (.mld, 0)
    | 0x04 => some (.mst, 0)
    | 0x05 => some (.mget, 0)
    | 0x06 => some (.mset, 0)
    | 0x07 => some (.mmov, 0)
    | 0x08 => some (.mcvt, 0)
    | 0x09 => some (.mcvt, 1)
    | 0x0A => some (.mcvt, 2)
    | 0x0B => some (.mcvt, 3)
    | 0x0C => some (.mcvt, 4)
    | 0x0D => some (.mcvt, 5)
    | 0x10 => some (.mma, 0)
    | 0x11 => some (.mmasp, 0)
    | 0x12 => some (.mtrn, 0)
    | 0x13 => some (.madd, 0)
    | 0x14 => some (.mhad, 0)
    | 0x15 => some (.minv, 0)
    | 0x16 => some (.mlu, 0)
    | 0x17 => some (.mchol, 0)
    | 0x18 => some (.msolve, 0)
    | 0x19 => some (.mexp, 0)
    | 0x1A => some (.mred, 0)
    | _ => none
  | 4 => match fn with
    | 0x00 => some (.shfl, 0)
    | 0x01 => some (.vote, 0)
    | 0x02 => some (.redLane, 0)
    | 0x03 => some (.scan, 0)
    | 0x04 => some (.part, 0)
    | 0x05 => some (.lead, 0)
    | 0x06 => some (.rebal, 0)
    | 0x07 => some (.topk, 0)
    | _ => none
  | 5 => match fn with
    | 0x00 => some (.ld, 0)
    | 0x01 => some (.st, 0)
    | 0x02 => some (.lds, 0)
    | 0x03 => some (.sts, 0)
    | 0x04 => some (.atoms, 0)
    | 0x05 => some (.reds, 0)
    | _ => none
  | 6 => match fn with
    | 0x00 => some (.copy, 0)
    | 0x01 => some (.bcopy, 0)
    | 0x02 => some (.ncopy, 0)
    | 0x03 => some (.lda, 0)
    | 0x04 => some (.str, 0)
    | 0x05 => some (.svst, 0)
    | 0x08 => some (.atom, 0)
    | 0x09 => some (.atom, 1)
    | 0x0A => some (.atom, 2)
    | 0x0B => some (.atom, 3)
    | 0x0C => some (.redGlobal, 0)
    | 0x0D => some (.redGlobal, 1)
    | 0x0E => some (.redGlobal, 2)
    | 0x0F => some (.redGlobal, 3)
    | _ => none
  | 7 => match fn with
    | 0x00 => some (.fence, 0)
    | 0x01 => some (.bar, 0)
    | 0x02 => some (.cbar, 0)
    | 0x03 => some (.wait, 0)
    | 0x04 => some (.arrive, 0)
    | 0x05 => some (.trigger, 0)
    | 0x06 => some (.spawn, 0)
    | 0x07 => some (.sleep, 0)
    | _ => none
  | 8 => match fn with
    | 0x00 => some (.dirput, 0)
    | 0x01 => some (.dirdel, 0)
    | 0x02 => some (.dirmove, 0)
    | 0x03 => some (.dirq, 0)
    | 0x04 => some (.solicit, 0)
    | 0x05 => some (.respond, 0)
    | _ => none
  | 9 => match fn with
    | 0x00 => some (.nop, 0)
    | 0x01 => some (.joinat, 0)
    | 0x02 => some (.lpad, 0)
    | 0x03 => some (.ovl, 0)
    | 0x04 => some (.brk, 0)
    | _ => none
  | 10 => match fn with
    | 0x00 => some (.trap, 0)
    | 0x01 => some (.rte, 0)
    | 0x02 => some (.sread, 0)
    | 0x03 => some (.swrite, 0)
    | 0x04 => some (.fmt, 0)
    | 0x05 => some (.ctxsv, 0)
    | 0x06 => some (.ctxld, 0)
    | 0x07 => some (.errq, 0)
    | 0x08 => some (.kill, 0)
    | _ => none
  | _ => none

/-! ### Types -/

/-- Width in bits of an element of a scalar type (R81, R84); 0 for the block types. -/
def Ty.width : Ty → Nat
  | .i32 | .n32 | .f32 => 32
  | .i8 | .n8 | .e4m3 | .e5m2 => 8
  | .i16 | .n16 | .f16 | .bf16 => 16
  | .i64 | .n64 | .f64 => 64
  | .i4 | .n4 | .e2m1 => 4
  | .e3m2 | .e2m3 => 6
  | .mxe4m3 | .mxe5m2 | .mxe3m2 | .mxe2m3 | .mxe2m1 | .mxi8 | .lum2 | .lum4 | .lum7 => 0

/-- The `.i` types, read as two's complement (R84). -/
def Ty.signed : Ty → Bool
  | .i32 | .i8 | .i16 | .i64 | .i4 => true
  | _ => false

/-- The integer types (R84). -/
def Ty.isInt : Ty → Bool
  | .i32 | .i8 | .i16 | .i64 | .i4 | .n32 | .n8 | .n16 | .n64 | .n4 => true
  | _ => false

/-- The nine floating element formats (R81). -/
def Ty.isFloat : Ty → Bool
  | .f32 | .f64 | .f16 | .bf16 | .e4m3 | .e5m2 | .e3m2 | .e2m3 | .e2m1 => true
  | _ => false

/-- The MX block formats (R86). -/
def Ty.isMx : Ty → Bool
  | .mxe4m3 | .mxe5m2 | .mxe3m2 | .mxe2m3 | .mxe2m1 | .mxi8 => true
  | _ => false

/-- The Lumen block formats (R88). -/
def Ty.isLum : Ty → Bool
  | .lum2 | .lum4 | .lum7 => true
  | _ => false

/-- The block formats (R86, R88). -/
def Ty.isBlock (t : Ty) : Bool := t.isMx || t.isLum

/-- The 22 format tags of a matrix register (R135). -/
def Ty.isTag : Ty → Bool
  | .i16 | .i64 | .n32 | .n16 | .n64 | .n4 => false
  | _ => true

/-- The 64-bit types, whose values stand in pairs (R30). -/
def Ty.wide (t : Ty) : Bool := t.width == 64

/-! ### Operand positions -/

/-- What one operand position permits and names (R55, R64, R97, R385): the classes it admits, the multiple its register
number must be of, how many registers it names, whether it is read as floating (R97), and whether it selects a place, a
lane, an element or an amount of movement, or feeds state that keeps no poison mark (R385). A source position with `read` false is not
read (R151). -/
structure Pos where
  v     : Bool := false
  c     : Bool := false
  m     : Bool := false
  p     : Bool := false
  q     : Bool := false
  imm   : Bool := false
  none  : Bool := false
  sprs  : List Spr := []
  top   : Bool := true
  align : Nat := 1
  span  : Nat := 1
  fp    : Bool := false
  sel   : Bool := false
  read  : Bool := true

/-- Does the position permit the operand (reason 0x05 of R79 where not)? -/
def Pos.admits (s : Pos) : Opnd → Bool
  | .v n => s.v && n.toNat % s.align == 0
  | .c n => s.c && n.toNat % s.align == 0
  | .m _ => s.m
  | .p n => s.p && (s.top || n != 7)
  | .q n => s.q && (s.top || n != 7)
  | .spr r => s.sprs.contains r
  | .imm => s.imm
  | .none => s.none

/-- A position the entry leaves unused: it holds 0x3FF (R110). -/
def Pos.unused : Pos := { none := true }

/-- A value position (R110). -/
def Pos.val (u : Bool) : Pos := { v := !u, c := true, imm := true }

/-- A value position without the immediate. -/
def Pos.reg (u : Bool) : Pos := { v := !u, c := true }

/-- A destination register (R55). -/
def Pos.dst (u : Bool) : Pos := { v := !u, c := u }

/-- A predicate destination, which may not be `p7` or `q7` (R110). -/
def Pos.pdst (u : Bool) : Pos := { p := !u, q := u, top := false }

/-- A predicate source (R110). -/
def Pos.psrc (u : Bool) : Pos := { p := !u, q := true }

/-- A matrix register (R29). -/
def Pos.mat : Pos := { m := true }

/-- An immediate that the instruction carries in the position. -/
def Pos.immOnly : Pos := { imm := true }

/-- `n` registers from a multiple of `n`. -/
def Pos.many (s : Pos) (n : Nat) : Pos := { s with align := n, span := n }

/-- An even-odd pair where `w` (R30). -/
def Pos.pairIf (s : Pos) (w : Bool) : Pos := if w then s.many 2 else s

/-- A floating read where `f` (R97). -/
def Pos.fpIf (s : Pos) (f : Bool) : Pos := { s with fp := f }

/-- A selecting operand (R385). -/
def Pos.selecting (s : Pos) : Pos := { s with sel := true }

/-- The position may also hold none. -/
def Pos.orNone (s : Pos) : Pos := { s with none := true }

/-- Which U values a mnemonic permits (R58, R77). -/
inductive Forms where
  | both | uniOnly | vecOnly
  deriving DecidableEq, Repr

/-- What an entry says of its word. `cpos`: the entry defines a C position, so the word carries no jix (R60). `readsD`: D
is read. `writesB`: B is written (`mlu`). `empties`: marked E in R77. -/
structure Entry where
  d       : Pos := Pos.unused
  a       : Pos := Pos.unused
  b       : Pos := Pos.unused
  c       : Pos := Pos.unused
  cpos    : Bool := false
  readsD  : Bool := false
  writesD : Bool := true
  writesB : Bool := false
  empties : Bool := false

/-- The U forms of each mnemonic (R77). -/
def Op.forms : Op → Forms
  | .part | .lds | .sts | .bcopy | .fence | .bar | .cbar | .wait | .arrive | .trigger | .sleep | .solicit
  | .joinat | .lpad | .ovl | .trap | .rte | .fmt | .ctxsv | .ctxld | .errq | .kill => .uniOnly
  | .cvtq | .cvtd | .dot2 | .dot4 | .dot8 | .packb | .unpackb
  | .mshape | .mzero | .mfill | .mld | .mst | .mget | .mset | .mmov | .mcvt | .mma | .mmasp | .mtrn | .madd | .mhad
  | .minv | .mlu | .mchol | .msolve | .mexp | .mred
  | .shfl | .redLane | .scan | .lead | .rebal | .topk | .ld | .st | .atoms | .reds
  | .copy | .ncopy | .lda | .str | .atom | .redGlobal | .spawn | .spawnTry | .respond => .vecOnly
  | _ => .both

/-- Is the U bit one the mnemonic's forms permit (reason 0x03)? -/
def Forms.admits : Forms → Bool → Bool
  | .both, _ => true
  | .uniOnly, u => u
  | .vecOnly, u => !u

/-! ### Modifier values (reason 0x04) -/

/-- The type codes that select the element sizes of the scratchpad accesses (R213). -/
def Ty.isAccess : Ty → Bool
  | .i8 | .n8 | .i16 | .n16 | .i32 | .n32 | .i64 | .n64 | .f16 | .bf16 | .f32 | .f64 | .e4m3 | .e5m2 => true
  | _ => false

/-- `.i32 .n32 .i64 .n64`. -/
def Ty.isInt32or64 : Ty → Bool
  | .i32 | .n32 | .i64 | .n64 => true
  | _ => false

/-- The floating types of group 0x1 (R122). -/
def Ty.isFp1 : Ty → Bool
  | .f64 | .f32 | .f16 | .bf16 => true
  | _ => false

/-- Bytes of one scratchpad access: the type's size times COUNT (R72). -/
def ModM.bytes (m : ModM) : Nat := m.ty.width / 8 * 2 ^ m.count.toNat

/-- A rounding code other than `.rfmt`. -/
def Rnd.isPlain (r : Rnd) : Bool := r != .rfmt

/-- The pairings of the dot products (R130). -/
def dotOk (elems : Ty → Bool) (m : ModB) : Bool :=
  elems m.sty &&
    (if m.sty.isFloat then (m.dty == .f32 || m.dty == .f16 || m.dty == .bf16)
     else m.dty == .i32 && m.rnd == .rne)

/-- The legal modifier values of each entry (R112, R122, R128 to R132, R151, R212 to R229, R264, R274, R319). `u` is the U
bit. -/
def Op.modsOk (op : Op) (u : Bool) : Mods → Bool
  | .none => true
  | .a m =>
    let int0 (types : Bool) (sat : Bool) : Bool := types && m.rnd == .rne && (sat || !m.sat) && m.sub == 0
    let fp1 : Bool := m.ty.isFp1 && m.rnd.isPlain && m.sub == 0
    let fp1x (sub : Bool) : Bool := m.ty.isFp1 && m.rnd == .rne && !m.sat && (sub || m.sub == 0)
    let mat0 (types : Bool) : Bool := types && m.rnd == .rne && !m.sat && m.sub == 0
    let matr (types sat sub : Bool) : Bool := types && (sat || !m.sat) && sub
    let arith : Bool := m.ty == .f64 || m.ty == .f32 || m.ty == .f16 || m.ty == .bf16 || m.ty == .i32
    let fact : Bool := m.ty == .f32 || m.ty == .f64
    let lane (types sat sub : Bool) : Bool := types && m.rnd == .rne && (sat || !m.sat) && sub
    let lint : Bool := m.ty.isInt32or64
    let lflt : Bool := m.ty == .f32 || m.ty == .f64
    match op with
    | .add | .sub | .mul | .mad | .div => int0 m.ty.isInt32or64 true
    | .mulhi | .rem | .min | .max | .and | .or | .xor | .andn | .shl | .shr | .sar | .rot | .brev
    | .clz | .ctz | .popc | .bfx | .bfi => int0 m.ty.isInt32or64 false
    | .addc => int0 (m.ty == .n32 || m.ty == .n64) false
    | .abs | .neg => int0 (m.ty == .i32 || m.ty == .i64) true
    | .cmp => m.ty.isInt32or64 && m.rnd == .rne && !m.sat && m.sub.toNat < 6
    | .sel | .mov | .movi => int0 (m.ty == .i32 || m.ty == .i64) false
    | .movh => int0 (m.ty == .i32) false
    | .lea => int0 (m.ty == .i32 || m.ty == .n32) false
    | .ext => int0 (m.ty == .i4 || m.ty == .i8 || m.ty == .i16 || m.ty == .n4 || m.ty == .n8 || m.ty == .n16
                      || m.ty == .i32 || m.ty == .n32) false
    | .fmin | .fmax | .fminm | .fmaxm | .fclass => fp1x false
    | .fcmp => fp1x true
    | .fadd | .fsub | .fmul | .fma | .fdiv | .frcp | .fsqrt | .frsq | .fexp2 | .flog2 | .fsin | .fcos | .ftanh
    | .fscale | .frint => fp1
    | .mshape | .mzero | .mld => mat0 m.ty.isTag
    | .mfill => matr m.ty.isTag true (m.sub == 0)
    | .mst | .mmov | .mtrn => mat0 (m.ty == .i32)
    | .mget | .mset => mat0 (m.ty.isTag && !m.ty.isBlock)
    | .mma | .mmasp => matr (m.ty == .i32) true true
    | .madd => matr arith true (m.sub.toNat < 2)
    | .mhad => matr arith true (m.sub == 0)
    | .minv | .mlu | .mchol | .msolve | .mexp => matr fact false (m.sub == 0)
    | .mred => matr arith true (m.sub.toNat % 4 != 3)
    | .shfl => lane (m.ty == .i32 || m.ty == .i64) false (m.sub.toNat < 4)
    | .vote => lane (m.ty == .i32 || (m.ty == .i64 && m.sub == 2)) false (m.sub.toNat < 5 && !(u && m.sub == 2))
    | .redLane | .scan => lane (lint || (lflt && m.sub.toNat < 3)) (m.sub == 0) (m.sub.toNat < 6)
    | .part | .lead | .rebal => lane (m.ty == .i32) false (m.sub == 0)
    | .topk => lane (m.ty == .f32) false (m.sub == 0)
    | _ => true
  | .b m =>
    let sc (t : Ty) : Bool := t.isInt || t.isFloat
    (m.rnd.isPlain || op == .mcvt) && match op with
    | .cvt => sc m.dty && sc m.sty && (m.dty.isFloat || m.sty.isFloat || m.rnd == .rne)
    | .cvtq => (m.sty == .f32 || m.sty == .f16 || m.sty == .bf16) && sc m.dty && m.dty != .f64
    | .cvtd => sc m.sty && !m.sty.wide && m.dty.isFp1
    | .dot2 => dotOk (fun t => t == .f16 || t == .bf16 || t == .i16 || t == .n16) m
    | .dot4 => dotOk (fun t => t == .e4m3 || t == .e5m2 || t == .i8 || t == .n8 || t == .e3m2 || t == .e2m3) m
    | .dot8 => dotOk (fun t => t == .e2m1 || t == .i4 || t == .n4) m
    | .packb => m.dty.isBlock && m.sty == .f32
    | .unpackb => m.sty.isBlock && m.dty == .f32 && m.rnd == .rne && !m.sat
    | .mcvt => m.dty.isTag && m.sty.isTag
    | _ => true
  | .m m =>
    m.ty.isAccess && m.count.toNat < 3 && m.bytes ≤ 16 &&
    (match op with
     | .ld | .lds => m.ord == .rlx || m.ord == .acq
     | _ => m.ord == .rlx || m.ord == .rel)
  | .g m =>
    (m.ty == .i32 || m.ty == .i64) &&
    (match op with
     | .lda => (m.ord == .rlx || m.ord == .acq) && (!m.promote || (m.ord == .acq && (m.scope == .dev || m.scope == .sys)))
     | _ => (m.ord == .rlx || m.ord == .rel) && !m.promote)
  | .ma m =>
    let ret : Bool := op == .atoms || op == .atom
    (m.ty.isInt32or64 || m.ty == .f32 || m.ty == .f64) &&
    (match m.op with
     | .add => true
     | .min | .max | .and | .or | .xor => m.ty.isInt
     | .swap | .cswap => ret
     | .fmin | .fmax => !m.ty.isInt) &&
    (match op with
     | .redGlobal => m.ord == .rlx || m.ord == .rel
     | .atom => true
     | _ => m.ord == .rlx)
  | .x m =>
    match op with
    | .bcopy => m.size != 0
    | .ncopy => m.size.toNat < 3 && !m.out
    | _ => m.size.toNat < 3
  | .f _ => true
  | .c _ => true

/-! ### Entries -/

/-- L and k of `topk` (R272). -/
def topkL (imm : BitVec 20) : Nat := imm.toNat % 32
def topkK (imm : BitVec 20) : Nat := imm.toNat / 256 % 16

/-- Is an operand a predicate? -/
def Opnd.isPred : Opnd → Bool
  | .p _ | .q _ => true
  | _ => false

/-- The entry of each mnemonic under its modifiers, U bit and operands. Predicates under a type other than .i32 are operands of a class
that the entry does not permit (log entry 132). `mld` and `mfill` read of md its shape alone: a marked md counts as read, and does not mark
the result (log entry 152). -/
def Op.entry (op : Op) (h : Head) (ms : Mods) : Entry :=
  let u := h.uni
  match ms with
  | .a m =>
    let w := m.ty.wide
    let f := m.ty.isFloat
    let val := (Pos.val u).pairIf w
    let v32 := Pos.val u
    let dst := (Pos.dst u).pairIf w
    let preds : Bool := h.d.isPred
    match op with
    | .add | .addc => { d := if op == .add then dst else Pos.dst u, a := val, b := val, c := val.orNone, cpos := true }
    | .sub | .mul | .mulhi | .min | .max => { d := dst, a := val, b := val }
    | .mad => { d := dst, a := val, b := val, c := val, cpos := true }
    | .div | .rem => { d := dst, a := val, b := val, empties := true }
    | .abs | .neg | .brev => { d := dst, a := val }
    | .and | .or | .xor | .andn =>
      if preds && m.ty == .i32 then { d := Pos.pdst u, a := Pos.psrc u, b := Pos.psrc u }
      else { d := dst, a := val, b := val }
    | .shl | .shr | .sar | .rot => { d := dst, a := val, b := v32.selecting }
    | .clz | .ctz | .popc => { d := Pos.dst u, a := val }
    | .bfx => { d := dst, a := val, b := v32.selecting, c := v32.selecting, cpos := true }
    | .bfi => { d := dst, a := val, b := v32.selecting, c := v32.selecting, cpos := true, readsD := true }
    | .lea => { d := (Pos.dst u).many 2, a := v32.pairIf true, b := v32, c := v32.selecting, cpos := true }
    | .sel => { d := dst, a := val, b := val, c := Pos.psrc u, cpos := true }
    | .cmp => { d := Pos.pdst u, a := val, b := val }
    | .mov => if preds && m.ty == .i32 then { d := Pos.pdst u, a := Pos.psrc u } else { d := dst, a := val }
    | .movi => { d := dst, a := Pos.immOnly }
    | .movh => { d := Pos.dst u, a := Pos.immOnly, readsD := true }
    | .ext => { d := (Pos.dst u).pairIf (m.ty == .i32 || m.ty == .n32), a := v32 }
    | .fadd | .fsub | .fmul | .fmin | .fmax | .fminm | .fmaxm => { d := dst, a := val.fpIf true, b := val.fpIf true }
    | .fma => { d := dst, a := val.fpIf true, b := val.fpIf true, c := val.fpIf true, cpos := true }
    | .fcmp => { d := Pos.pdst u, a := val.fpIf true, b := val.fpIf true }
    | .fclass => { d := Pos.dst u, a := val }
    | .fdiv => { d := dst, a := val.fpIf true, b := val.fpIf true, empties := true }
    | .frcp | .fsqrt | .frsq | .fexp2 | .flog2 | .fsin | .fcos | .ftanh =>
      { d := dst, a := val.fpIf true, empties := true }
    | .fscale => { d := dst, a := val.fpIf true, b := v32 }
    | .frint => { d := dst, a := val.fpIf true }
    | .mshape => { d := Pos.mat, a := v32.selecting, readsD := true }
    | .mzero => { d := Pos.mat, a := v32.selecting }
    | .mfill => { d := Pos.mat, a := (v32.pairIf w).fpIf (f || m.ty.isBlock), readsD := true }
    | .mld => { d := Pos.mat, a := (Pos.reg u).selecting, b := v32.selecting, readsD := true, empties := true }
    | .mst => { d := Pos.mat, a := (Pos.reg u).selecting, b := v32.selecting, readsD := true, writesD := false }
    | .mget => { d := dst, a := Pos.mat, b := v32.selecting, empties := true }
    | .mset => { d := Pos.mat, a := (v32.pairIf w).fpIf f, b := v32.selecting, readsD := true }
    | .mmov => { d := Pos.mat, a := Pos.mat }
    | .mtrn | .minv | .mchol | .mexp | .mred => { d := Pos.mat, a := Pos.mat, empties := true }
    | .mma =>
      { d := Pos.mat, a := Pos.mat, b := Pos.mat, c := if m.sub.getLsbD 0 then { Pos.mat.orNone with read := false } else Pos.mat
        cpos := true, empties := true }
    | .mmasp =>
      { d := Pos.mat, a := Pos.mat, b := Pos.mat, c := ({ c := true } : Pos).many 2 |>.selecting
        cpos := true, empties := true, readsD := !m.sub.getLsbD 0 }
    | .madd | .mhad | .msolve => { d := Pos.mat, a := Pos.mat, b := Pos.mat, empties := true }
    | .mlu => { d := Pos.mat, a := Pos.mat, b := { ({ v := true } : Pos).many 2 with read := false }, empties := true, writesB := true }
    | .shfl => { d := dst, a := (Pos.reg u).pairIf w, b := v32.selecting }
    | .vote =>
      let src : Pos := if m.sub == 2 then (Pos.reg u).pairIf w else { p := true }
      { d := if m.sub.toNat < 3 then Pos.pdst u else Pos.dst u, a := src }
    | .redLane | .scan => { d := dst, a := ((Pos.reg u).pairIf w).fpIf f }
    | .part => { a := v32.selecting, writesD := false }
    | .lead => { d := Pos.pdst false, a := ({ c := true, imm := true, none := true } : Pos).selecting }
    | .rebal => { d := (Pos.dst u).many 2, a := Pos.reg u, b := v32.selecting }
    | .topk =>
      { d := { v := true, span := 2 * topkK h.imm }, a := { v := true, span := topkL h.imm, fp := true }, b := Pos.immOnly }
    | _ => {}
  | .b m =>
    let v32 := Pos.val u
    let sf := m.sty.isFloat || m.sty.isBlock
    match op with
    | .cvt => { d := (Pos.dst u).pairIf m.dty.wide, a := (v32.pairIf m.sty.wide).fpIf sf }
    | .cvtq => { d := (Pos.dst u).pairIf m.dty.wide, a := v32.fpIf sf, b := v32.fpIf true }
    | .cvtd => { d := (Pos.dst u).pairIf m.dty.wide, a := v32.fpIf sf, b := v32.fpIf true }
    | .dot2 | .dot4 | .dot8 => { d := Pos.dst u, a := v32.fpIf sf, b := v32.fpIf sf, c := v32.fpIf sf, cpos := true }
    | .packb | .unpackb => { d := Pos.dst u, a := v32.fpIf true }
    | .mcvt => { d := Pos.mat, a := Pos.mat, empties := true }
    | _ => {}
  | .m m =>
    let n := (m.bytes + 3) / 4
    let off : Pos := (Pos.val u).selecting
    match op with
    | .ld | .lds => { d := (Pos.dst u).many n, a := off, empties := true }
    | _ => { d := (Pos.dst u).many n, a := off, readsD := true, writesD := false }
  | .g m =>
    let adr : Pos := ((Pos.reg u).many 2).selecting
    let off : Pos := (Pos.val u).selecting.orNone
    match op with
    | .lda => { d := (Pos.dst u).pairIf m.ty.wide, a := adr, b := off, empties := true }
    | _ => { d := (Pos.dst u).pairIf m.ty.wide, a := adr, b := off, readsD := true, writesD := false }
  | .ma m =>
    let w := m.ty.wide
    let fp : Bool := m.ty.isFloat && (m.op == .add || m.op == .fmin || m.op == .fmax)
    let b : Pos := ((Pos.val u).pairIf w).selecting.fpIf fp
    let c : Pos := if m.op == .cswap then ((Pos.val u).pairIf w).selecting else Pos.unused
    let off : Pos := (Pos.val u).selecting
    let adr : Pos := ((Pos.reg u).many 2).selecting
    let plain (p : Pos) : Pos := { p with sel := false }
    match op with
    | .atoms => { d := (Pos.dst u).pairIf w, a := off, b := b, c := c, cpos := true, empties := true }
    | .reds => { a := off, b := b, writesD := false }
    | .atom => { d := (Pos.dst u).pairIf w, a := adr, b := plain b, c := plain c, cpos := true, empties := true }
    | _ => { a := adr, b := plain b, writesD := false }
  | .x m =>
    let ctr : Pos := ({ c := true, imm := true, none := true } : Pos).selecting
    match op with
    | .copy =>
      { d := (Pos.dst u).many 2, a := ((Pos.reg u).many 2).selecting, b := (Pos.val u).selecting
        c := if m.out then Pos.unused else ctr, cpos := true, empties := true }
    | .ncopy =>
      { d := (Pos.dst u).many 2, a := (Pos.val u).selecting, b := (Pos.val u).selecting, c := ctr, cpos := true
        empties := true }
    | _ =>
      { d := (Pos.dst u).many 4, a := (({ c := true } : Pos).many 8).selecting
        c := if m.out then ((({ c := true } : Pos).many 2).selecting).orNone else ctr, cpos := true, empties := true }
  | .f _ => { writesD := false }
  | .c _ =>
    let pr : Pos := (({ c := true } : Pos).many 2).selecting
    { d := (Pos.dst u).many 4, a := pr, b := pr, c := pr, cpos := true, empties := true }
  | .none =>
    let ci : Pos := ({ c := true, imm := true } : Pos).selecting
    let sv : Pos := (Pos.val u).selecting
    let pr : Pos := ((Pos.reg u).many 2).selecting
    match op with
    | .svst => { a := sv, b := (Pos.reg u).many 2, writesD := false }
    | .bar | .cbar | .sleep => { a := ci, writesD := false }
    | .wait => { a := ci, b := ci, writesD := false }
    | .arrive => { a := ci, b := ci.orNone, c := ci.orNone, cpos := true, writesD := false }
    | .spawn => { a := sv, b := ci, writesD := false }
    | .spawnTry => { d := Pos.pdst false, a := sv, b := ci }
    | .dirput => { d := Pos.dst u, a := pr, b := pr, c := pr, cpos := true }
    | .dirdel => { d := Pos.dst u, a := sv }
    | .dirmove => { d := Pos.dst u, a := sv, b := sv, c := pr.orNone, cpos := true, empties := true }
    | .dirq => { d := (Pos.dst u).many 8, a := sv, empties := true }
    | .respond => { a := (Pos.reg u).many 2, writesD := false }
    | .joinat | .lpad | .trap => { a := Pos.immOnly, writesD := false }
    | .brk => { a := Pos.immOnly.orNone, writesD := false }
    | .ovl => { d := Pos.dst u, a := ci, b := ci, empties := true }
    | .sread =>
      let wide : Bool := h.a == .spr .cyc || h.a == .spr .taddr
      { d := (Pos.dst u).pairIf wide
        a := { sprs := [.beam, .team, .core, .cyc, .ext0, .ext1, .ext2, .emask, .tcause, .tpc, .taddr, .part, .fmt]
                        ++ (if u then [] else [.tid, .lane, .ekind]) } }
    | .swrite => { d := { sprs := if u then [.emask, .tpc, .tcause] else [.ekind] }, a := sv, writesD := false }
    | .fmt | .kill => { a := ci, writesD := false }
    | .ctxsv | .ctxld => { d := Pos.dst u, a := (({ c := true } : Pos).many 2).selecting, empties := true }
    | .errq => { d := (Pos.dst u).many 8, a := ci, empties := true }
    | _ => { writesD := false }

end Sys2Proof
end

