-- ==== Sys2Proof/Machine/Num.lean ====
section
/-!
DEFINITION. Numbers: integer ranges, the floating element formats, exact values, rounding and saturation (R81 to R95, R99,
R112), and the correctly rounded functions of group 0x1 (R127). Exact values are dyadic; quotients, roots and the
transcendental functions are enclosed between dyadics until both ends round alike.
-/
namespace Sys2Proof

/-! ### Integers (R84, R112) -/

/-- The value of a pattern read as a type: two's complement for the `.i` types (R112). -/
def Ty.val (t : Ty) (x : Nat) : Int :=
  let w := t.width
  let x := x % 2 ^ w
  if t.signed && decide (2 ^ (w - 1) ≤ x) then (x : Int) - 2 ^ w else x

/-- The lowest value of an integer type (R84). -/
def Ty.lo (t : Ty) : Int := if t.signed then -(2 ^ (t.width - 1) : Int) else 0

/-- The highest value of an integer type (R84). -/
def Ty.hi (t : Ty) : Int := if t.signed then 2 ^ (t.width - 1) - 1 else 2 ^ t.width - 1

/-- The w-bit pattern of an integer. -/
def Ty.wrap (t : Ty) (y : Int) : Nat := (y % (2 ^ t.width : Int)).toNat

/-- An integer clamped to the range of a type. -/
def Ty.clamp (t : Ty) (y : Int) : Int := max t.lo (min y t.hi)

/-- The pattern that stores a result: clamped under `.sat`, otherwise reduced modulo 2^w (R112). -/
def Ty.fit (t : Ty) (sat : Bool) (y : Int) : Nat := t.wrap (if sat then t.clamp y else y)

/-! ### Formats (R81) -/

/-- Mantissa bits. -/
def Ty.mant : Ty → Nat
  | .f64 => 52 | .f32 => 23 | .f16 => 10 | .bf16 => 7 | .e4m3 | .e2m3 => 3 | .e5m2 | .e3m2 => 2 | .e2m1 => 1
  | _ => 0

/-- Exponent bits. -/
def Ty.ebits : Ty → Nat
  | .f64 => 11 | .f32 | .bf16 => 8 | .f16 | .e5m2 => 5 | .e4m3 => 4 | .e3m2 => 3 | .e2m3 | .e2m1 => 2
  | _ => 0

/-- The exponent bias. -/
def Ty.bias (t : Ty) : Nat := 2 ^ (t.ebits - 1) - 1

/-- Does the format hold infinities, with e all ones? -/
def Ty.ieee : Ty → Bool
  | .f64 | .f32 | .f16 | .bf16 | .e5m2 => true
  | _ => false

/-- The magnitude code of the largest finite value. -/
def Ty.largest (t : Ty) : Nat :=
  if t.ieee then (2 ^ t.ebits - 1) * 2 ^ t.mant - 1 else if t == .e4m3 then 0x7E else 2 ^ (t.ebits + t.mant) - 1

/-- The canonical NaN (R82); the formats without one give the code of +largest (R93). -/
def Ty.nanCode (t : Ty) : Nat :=
  if t.ieee then (2 ^ t.ebits - 1) * 2 ^ t.mant + 2 ^ (t.mant - 1) else if t == .e4m3 then 0x7F else t.largest

/-- The code with the sign of a magnitude code. -/
def Ty.signed' (t : Ty) (neg : Bool) (mag : Nat) : Nat := mag + if neg then 2 ^ (t.ebits + t.mant) else 0

/-- The exponent of the lowest subnormal bit. -/
def Ty.emin (t : Ty) : Int := 1 - (t.bias : Int) - t.mant

/-- An exact value: NaN, an infinity, or (−1)^neg × m × 2^e. -/
inductive Ext where
  | nan
  | inf (neg : Bool)
  | fin (neg : Bool) (m : Nat) (e : Int)
  deriving DecidableEq, Repr

/-- The value of a code (R81). -/
def Ty.decode (t : Ty) (code : Nat) : Ext :=
  let code := code % 2 ^ t.width
  let neg : Bool := decide (2 ^ (t.ebits + t.mant) ≤ code)
  let mag := code % 2 ^ (t.ebits + t.mant)
  let e := mag / 2 ^ t.mant
  let m := mag % 2 ^ t.mant
  if t.ieee && e == 2 ^ t.ebits - 1 then (if m = 0 then .inf neg else .nan)
  else if t == .e4m3 && mag == 0x7F then .nan
  else if e = 0 then .fin neg m t.emin
  else .fin neg (m + 2 ^ t.mant) (t.emin + (e : Int) - 1)

/-- The value of an integer. -/
def Ext.ofInt (x : Int) : Ext := .fin (decide (x < 0)) x.natAbs 0

/-- The value of a code of any scalar type. -/
def Ty.value (t : Ty) (code : Nat) : Ext := if t.isInt then .ofInt (t.val code) else t.decode code

/-! ### Rounding (R91, R93) -/

/-- Is the lower neighbour left for the upper one? `q` is the magnitude of the lower neighbour in units, `r` of `k` the
part above it, where `k` is twice the half. -/
def roundsUp (mode : Rnd) (neg : Bool) (q r k : Nat) : Bool :=
  match mode with
  | .rne | .rfmt => decide (k < 2 * r) || (2 * r == k && q % 2 == 1)
  | .rna => decide (k ≤ 2 * r)
  | .rtz => false
  | .rdn => neg && r != 0
  | .rup => !neg && r != 0

/-- The magnitude m × 2^e, or one strictly between it and the next under `sticky`, in units of 2^u (R91). Under `sticky`, u
exceeds e. -/
def roundUnits (mode : Rnd) (neg : Bool) (m : Nat) (e : Int) (sticky : Bool) (u : Int) : Nat :=
  let m := 4 * m + sticky.toNat
  let k := u - (e - 2)
  if k ≤ 0 then m * 2 ^ k.natAbs
  else
    let n := min k.toNat (Nat.log2 m + 3)
    let q := m / 2 ^ n
    if roundsUp mode neg q (m % 2 ^ n) (2 ^ n) then q + 1 else q

/-- rint (R91): the integer chosen from a magnitude. -/
def rintMag (mode : Rnd) (neg : Bool) (m : Nat) (e : Int) : Nat := roundUnits mode neg m e false 0

/-- An overflow to a format (R93). -/
def Ty.overflow (t : Ty) (mode : Rnd) (sat neg : Bool) : Nat :=
  let toInf : Bool := match mode with | .rne | .rna | .rfmt => true | .rtz => false | .rdn => neg | .rup => !neg
  if sat || !toInf then t.signed' neg t.largest
  else if t.ieee then t.signed' neg (t.largest + 1)
  else if t == .e4m3 then t.nanCode
  else t.signed' neg t.largest

/-- An infinite result in a format (R93). -/
def Ty.infinite (t : Ty) (sat neg : Bool) : Nat := t.overflow .rne sat neg

/-- round_to of a finite magnitude, with R93 on overflow. -/
def Ty.roundMag (t : Ty) (mode : Rnd) (sat neg : Bool) (m : Nat) (e : Int) (sticky : Bool) : Nat :=
  if m = 0 && !sticky then t.signed' neg 0
  else
    let u := max (e + (Nat.log2 m + 1 : Nat) - (t.mant + 1 : Nat)) t.emin
    let q := roundUnits mode neg m e sticky u
    let code := (u - t.emin).toNat * 2 ^ t.mant + q
    if q = 0 then t.signed' neg 0
    else if t.largest < code then t.overflow mode sat neg
    else t.signed' neg code

/-- round_to of an exact value (R91, R93): NaN is canonical (R82). -/
def Ty.round (t : Ty) (mode : Rnd) (sat : Bool) : Ext → Nat
  | .nan => t.nanCode
  | .inf neg => t.infinite sat neg
  | .fin neg m e => t.roundMag mode sat neg m e false

/-! ### Exact arithmetic (R94, R99) -/

/-- Is the value an exact zero? -/
def Ext.isZero : Ext → Bool
  | .fin _ 0 _ => true
  | _ => false

/-- Is the value NaN? -/
def Ext.isNan : Ext → Bool
  | .nan => true
  | _ => false

/-- The value negated; the sign of a NaN does not exist. -/
def Ext.neg : Ext → Ext
  | .nan => .nan
  | .inf s => .inf (!s)
  | .fin s m e => .fin (!s) m e

/-- The exact product (R99). -/
def Ext.mul : Ext → Ext → Ext
  | .fin a m e, .fin b n f => .fin (a ^^ b) (m * n) (e + f)
  | .inf a, .inf b => .inf (a ^^ b)
  | .inf a, .fin b n _ => if n = 0 then .nan else .inf (a ^^ b)
  | .fin a m _, .inf b => if m = 0 then .nan else .inf (a ^^ b)
  | _, _ => .nan

/-- The signed magnitude of a finite value in units of 2^u, where u is no larger than its exponent. -/
def Ext.units (u : Int) : Ext → Int
  | .fin s m e => let x : Int := (m * 2 ^ (e - u).toNat : Nat); if s then -x else x
  | _ => 0

/-- The exponent of a finite value. -/
def Ext.expo : Ext → Int
  | .fin _ _ e => e
  | _ => 0

/-- The exact sum of terms (R99, R102): NaN where a term is NaN or both infinities occur. `zero` is the sign of an exact
zero whose terms are not all −0. -/
def Ext.sum (zero : Bool) (ts : List Ext) : Ext :=
  if ts.any (·.isNan) then .nan
  else
    let pos := ts.contains (.inf false)
    let neg := ts.contains (.inf true)
    if pos && neg then .nan
    else if pos then .inf false
    else if neg then .inf true
    else
      let u := (ts.map Ext.expo).foldl min ((ts.head?.map Ext.expo).getD 0)
      let x := ts.foldl (fun acc t => acc + t.units u) (0 : Int)
      if x = 0 then
        let minus : Bool := !ts.isEmpty && ts.all (fun t => match t with | .fin s m _ => s && m == 0 | _ => false)
        .fin (minus || (zero && ts.any (fun t => match t with | .fin s _ _ => s | _ => false))) 0 0
      else .fin (decide (x < 0)) x.natAbs u

/-- The sum of two values under a mode (R94). -/
def Ext.add (mode : Rnd) (a b : Ext) : Ext := Ext.sum (mode == .rdn) [a, b]

/-- Is the first finite or infinite value below the second? Zeros are equal; NaN compares false. -/
def Ext.lt (a b : Ext) : Bool :=
  match a, b with
  | .nan, _ | _, .nan => false
  | .inf s, .inf t => s && !t
  | .inf s, .fin _ _ _ => s
  | .fin _ _ _, .inf t => !t
  | x, y => let u := min x.expo y.expo; decide (x.units u < y.units u)

/-- Are two values equal? Zeros are equal; NaN is unequal to everything. -/
def Ext.eq (a b : Ext) : Bool := !a.isNan && !b.isNan && !Ext.lt a b && !Ext.lt b a

/-- Is the value's sign set? -/
def Ext.sign : Ext → Bool
  | .nan => false
  | .inf s => s
  | .fin s _ _ => s

/-- The order of R124: −0 below +0. -/
def Ext.below (a b : Ext) : Bool := Ext.lt a b || (Ext.eq a b && a.sign && !b.sign)

/-- floor(log2 |x|) of a finite non-zero value. -/
def Ext.log2 : Ext → Int
  | .fin _ m e => (Nat.log2 m : Int) + e
  | _ => 0

/-! ### Conversions (R95) -/

/-- A value to an integer type: rint, then clamped; NaN gives 0. -/
def Ty.ofExtInt (t : Ty) (mode : Rnd) : Ext → Nat
  | .nan => 0
  | .inf s => t.wrap (if s then t.lo else t.hi)
  | .fin s m e =>
    let big : Bool := decide (70 < (Nat.log2 m : Int) + e) && m != 0
    let y : Int := if big then 2 ^ 70 else rintMag mode s m e
    t.wrap (t.clamp (if s then -y else y))

/-- A value to a scalar type (R95). -/
def Ty.ofExt (t : Ty) (mode : Rnd) (sat : Bool) (x : Ext) : Nat := if t.isInt then t.ofExtInt mode x else t.round mode sat x

/-- One element converted between scalar types (R95). -/
def convert (dst src : Ty) (mode : Rnd) (sat : Bool) (code : Nat) : Nat :=
  if dst.isInt && src.isInt then dst.fit sat (src.val code)
  else dst.ofExt mode sat (src.value code)

/-- An immediate read as an operand of a type (R56): integers sign-extended to the operand's width, at least 32 bits; the
floating formats through FP32, which FP64 widens exactly, and the saturation setting acts on no other. DEDUCED (log entry 186): so also for
atomics of floating types (R209), those that move bits among them. -/
def immValue (imm : BitVec 20) (t : Ty) (sat : Bool) : Nat :=
  if t.isFloat then
    let p := imm.toNat * 4096
    if t == .f32 then p else t.round .rne (sat && t != .f64) (Ty.f32.decode p)
  else if t.wide then (BitVec.signExtend 64 imm).toNat
  else (BitVec.signExtend 32 imm).toNat

/-- The saturation setting of a word (R56, R70, R71). -/
def Mods.sat : Mods → Bool
  | .a k => k.sat
  | .b k => k.sat
  | _ => false

/-! ### Minimum, maximum, classes (R124 to R126) -/

/-- `fmin`, `fmax`, `fminm`, `fmaxm` (R124): `mx` for the larger, `num` where a NaN gives way to a number. -/
def fpick (t : Ty) (mx num : Bool) (a b : Nat) : Nat :=
  let x := t.decode a
  let y := t.decode b
  if x.isNan && y.isNan then t.nanCode
  else if x.isNan then (if num then b else t.nanCode)
  else if y.isNan then (if num then a else t.nanCode)
  else if mx then (if Ext.below x y then b else a)
  else (if Ext.below y x then b else a)

/-- A comparison code applied to two floating values (R125). -/
def fcompare (t : Ty) (cc a b : Nat) : Bool :=
  let x := t.decode a
  let y := t.decode b
  match cc with
  | 0 => Ext.eq x y
  | 1 => !Ext.eq x y
  | 2 => Ext.lt x y
  | 3 => Ext.lt x y || Ext.eq x y
  | 4 => Ext.lt y x
  | 5 => Ext.lt y x || Ext.eq x y
  | 6 => !x.isNan && !y.isNan
  | _ => x.isNan || y.isNan

/-- The class bit of a code (R126). -/
def fclassBit (t : Ty) (code : Nat) : Nat :=
  let normal : Bool := decide (2 ^ t.mant ≤ code % 2 ^ (t.ebits + t.mant))
  match t.decode code with
  | .nan => if code / 2 ^ (t.mant - 1) % 2 = 0 then 8 else 9
  | .inf s => if s then 0 else 7
  | .fin s m _ =>
    if m = 0 then (if s then 3 else 4)
    else if normal then (if s then 1 else 6)
    else (if s then 2 else 5)

/-! ### Quotients and roots (R92, R127) -/

/-- round_to of the quotient of two finite magnitudes. -/
def Ty.roundQuot (t : Ty) (mode : Rnd) (sat neg : Bool) (m : Nat) (e : Int) (n : Nat) (f : Int) : Nat :=
  let k := t.mant + 6 + Nat.log2 n
  let q := m * 2 ^ k / n
  t.roundMag mode sat neg q (e - f - k) (m * 2 ^ k % n != 0)

/-- a / b (R127). -/
def fdivide (t : Ty) (mode : Rnd) (sat : Bool) (a b : Ext) : Nat :=
  match a, b with
  | .nan, _ | _, .nan | .inf _, .inf _ => t.nanCode
  | .inf s, .fin r _ _ => t.infinite sat (s ^^ r)
  | .fin s _ _, .inf r => t.signed' (s ^^ r) 0
  | .fin s m e, .fin r n f =>
    if n = 0 then (if m = 0 then t.nanCode else t.infinite sat (s ^^ r))
    else if m = 0 then t.signed' (s ^^ r) 0
    else t.roundQuot mode sat (s ^^ r) m e n f

/-- The integer square root, bit by bit from bit n. -/
def isqrtFrom (x : Nat) : Nat → Nat → Nat
  | 0, r => if (r + 1) * (r + 1) ≤ x then r + 1 else r
  | n + 1, r => isqrtFrom x n (if (r + 2 ^ (n + 1)) * (r + 2 ^ (n + 1)) ≤ x then r + 2 ^ (n + 1) else r)

/-- The integer square root. -/
def isqrt (x : Nat) : Nat := isqrtFrom x (Nat.log2 x / 2 + 1) 0

/-- √a (R127). -/
def fsqrtOf (t : Ty) (mode : Rnd) (sat : Bool) : Ext → Nat
  | .nan => t.nanCode
  | .inf s => if s then t.nanCode else t.infinite sat false
  | .fin s m e =>
    if m = 0 then t.signed' s 0
    else if s then t.nanCode
    else
      let odd := (e % 2).toNat
      let k := t.mant + 4
      let x := m * 2 ^ (odd + 2 * k)
      let r := isqrt x
      t.roundMag mode sat false r ((e - odd) / 2 - k) (r * r != x)

/-- 1 / √a (R127). -/
def frsqOf (t : Ty) (mode : Rnd) (sat : Bool) : Ext → Nat
  | .nan => t.nanCode
  | .inf s => if s then t.nanCode else t.signed' false 0
  | .fin s m e =>
    if m = 0 then t.infinite sat s
    else if s then t.nanCode
    else
      let odd := (e % 2).toNat
      let m := m * 2 ^ odd
      let k := t.mant + 6 + Nat.log2 m
      let x := 2 ^ (2 * k)
      let r := isqrt (x / m)
      t.roundMag mode sat false r (-(k : Int) - (e - odd) / 2) (r * r * m != x)

/-! ### Enclosures

A value is enclosed as a centre, an error and an exponent: it lies between (A − E) × 2^x and (A + E) × 2^x. -/

/-- An enclosed value. -/
structure Enc where
  mid : Int
  err : Nat
  exp : Int
  deriving DecidableEq, Repr

/-- The code on which both ends of an enclosure agree. -/
def Enc.round? (c : Enc) (t : Ty) (mode : Rnd) (sat : Bool) : Option Nat :=
  let lo := c.mid - c.err
  let hi := c.mid + c.err
  if 0 < lo then
    let a := t.roundMag mode sat false lo.toNat c.exp false
    if a = t.roundMag mode sat false hi.toNat c.exp false then some a else none
  else if hi < 0 then
    let a := t.roundMag mode sat true hi.natAbs c.exp false
    if a = t.roundMag mode sat true lo.natAbs c.exp false then some a else none
  else none

/-- The first code decided along enclosures of rising precision; the centre of the last where none decides. -/
def decideRound (t : Ty) (mode : Rnd) (sat : Bool) (f : Nat → Enc) : Nat → List Nat → Nat
  | last, [] => let c := f last; t.roundMag mode sat (decide (c.mid < 0)) c.mid.natAbs c.exp false
  | _, w :: ws =>
    match (f w).round? t mode sat with
    | some a => a
    | none => decideRound t mode sat f w ws

/-- The precisions tried for a format, in bits. -/
def Ty.precisions (t : Ty) : List Nat := [t.mant + 80, 2 * t.mant + 160, 4 * t.mant + 400, 8 * t.mant + 1200]

/-- ln 2 in units of 2^-w, low by less than 2 units: the sum of 1 / (k 2^k). -/
def ln2 (w : Nat) : Nat :=
  ((List.range (w + 32)).foldl (fun acc k => acc + 2 ^ (w + 31 - k) / (k + 1)) 0) / 2 ^ 32

/-- The sum of the terms of e^x for x in units of 2^-w, 0 ≤ x < 1, from the term after T_(k-1). -/
def expTerms (w x : Nat) : Nat → Nat → Nat → Nat
  | 0, _, _ => 0
  | n + 1, k, term =>
    let term := term * x / 2 ^ w / k
    if term = 0 then 0 else term + expTerms w x n (k + 1) term

/-- e^x for 0 ≤ x < 1 in units of 2^-w, known to `d` units: centre and error. -/
def expUnit (w x d : Nat) : Nat × Nat := (2 ^ w + expTerms w x w 1 (2 ^ w), (w + 2) * (d + 4))

/-- A value in whole units of 2^-w, rounded down. -/
def Ext.floorUnits (w : Nat) : Ext → Int
  | .fin s m e =>
    let k := e + w
    let x : Int := if 0 ≤ k then (m * 2 ^ k.toNat : Nat) else (m / 2 ^ (-k).toNat : Nat)
    let exact : Bool := decide (0 ≤ k) || m % 2 ^ (-k).toNat == 0
    if s then (if exact then -x else -x - 1) else x
  | _ => 0

/-- 2^a enclosed at w bits, for |a| below 2^20. -/
def exp2Enc (a : Ext) (w : Nat) : Enc :=
  let y := a.floorUnits w
  let n := y / (2 ^ w : Int)
  let f := (y % (2 ^ w : Int)).toNat
  let r := expUnit w (f * ln2 w / 2 ^ w) 4
  { mid := r.1, err := if f = 0 then 0 else r.2, exp := n - w }

/-- e^a enclosed at w bits, for |a| below 2^20; 0 gives 1 exactly. -/
def expEnc (a : Ext) (w : Nat) : Enc :=
  if a.isZero then { mid := (2 ^ w : Nat), err := 0, exp := -(w : Int) }
  else
    let y := a.floorUnits w
    let l : Int := ln2 w
    let n := y / l
    let r := expUnit w (y % l).toNat (2 * n.natAbs + 3)
    { mid := r.1, err := r.2, exp := n - w }

/-- The sum of z^(2k+1) / (2k+1) from a power of z in units of 2^-w. -/
def atanhTerms (w z2 : Nat) : Nat → Nat → Nat → Nat
  | 0, _, _ => 0
  | n + 1, k, p => if p = 0 then 0 else p / (2 * k + 1) + atanhTerms w z2 n (k + 1) (p * z2 / 2 ^ w)

/-- log2 of a positive value enclosed at w bits: exact for a power of two. -/
def log2Enc (a : Ext) (w : Nat) : Enc :=
  match a with
  | .fin _ m e =>
    let n := Nat.log2 m
    let one := 2 ^ n
    let z := (m - one) * 2 ^ w / (m + one)
    let s := 2 * atanhTerms w (z * z / 2 ^ w) w 0 z
    let q := s * 2 ^ w / ln2 w
    { mid := ((n : Int) + e) * (2 ^ w : Nat) + q, err := if m = one then 0 else 12 * (w + 2) * 5, exp := -(w : Int) }
  | _ => { mid := 0, err := 1, exp := 0 }

/-- The alternating sum of 1 / ((2k+1) n^(2k+1)) in units of 2^-w, from a power. -/
def atanTerms (n2 : Nat) : Nat → Nat → Nat → Int
  | 0, _, _ => 0
  | f + 1, k, p => if p = 0 then 0 else ((p / (2 * k + 1) : Nat) : Int) - atanTerms n2 f (k + 1) (p / n2)

/-- π / 2 in units of 2^-w, to within 2 units: 8 atan(1/5) − 2 atan(1/239). -/
def halfPi (w : Nat) : Nat :=
  let v := w + 32
  ((8 * atanTerms 25 v 0 (2 ^ v / 5) - 2 * atanTerms 57121 v 0 (2 ^ v / 239)) / (2 ^ 32 : Int)).toNat

/-- The terms of the sine or cosine series after a term, for x² in units of 2^-w. -/
def trigTerms (w x2 : Nat) : Nat → Nat → Nat → Int
  | 0, _, _ => 0
  | n + 1, k, term =>
    let term := term * x2 / 2 ^ w / (k * (k + 1))
    if term = 0 then 0 else -(term : Int) - trigTerms w x2 n (k + 2) term

/-- The sine or cosine of a value enclosed at w bits: the argument less a whole number of quarter turns (R127: exact radians
at any magnitude). -/
def trigEnc (cosine : Bool) (a : Ext) (w : Nat) : Enc :=
  match a with
  | .fin neg _ _ =>
    let b := w + 16 + (max 0 a.log2).toNat
    let x := ((if neg then a.neg else a).floorUnits b).toNat
    let h := halfPi b
    let k := (2 * x + h) / (2 * h)
    let r : Int := ((x : Int) - k * h) / (2 ^ (b - w) : Int)
    let m := r.natAbs
    let m2 := m * m / 2 ^ w
    let quarter := (k + if cosine then 1 else 0) % 4
    let useCos : Bool := quarter % 2 == 1
    let v : Int := if useCos then (2 ^ w : Nat) + trigTerms w m2 w 1 (2 ^ w)
      else
        let s : Int := (m : Int) + trigTerms w m2 w 2 m
        if r < 0 then -s else s
    let v := if 2 ≤ quarter then -v else v
    { mid := if neg && !cosine then -v else v, err := 8 * (w + 4), exp := -(w : Int) }
  | _ => { mid := 0, err := 1, exp := 0 }

/-- tanh of a positive value enclosed at w bits: (1 − y) / (1 + y) with y = e^(-2a). -/
def tanhEnc (a : Ext) (w : Nat) : Enc :=
  match a with
  | .fin s m e =>
    let y := expEnc (.fin true m (e + 1)) w
    let sh := (-(w : Int) - y.exp).toNat
    let yc : Int := y.mid / (2 ^ sh : Int)
    let ye := y.err / 2 ^ sh + 2
    let one : Int := (2 ^ w : Nat)
    let q := (one - yc) * one / (one + yc)
    { mid := if s then -q else q, err := 2 * ye + 2, exp := -(w : Int) }
  | _ => { mid := 0, err := 1, exp := 0 }

/-- Is the magnitude of a non-zero finite value below 2^k? -/
def Ext.tiny (k : Int) (a : Ext) : Bool := decide (a.log2 < k)

/-- A magnitude just below m × 2^e: strictly between it and the next lower one at 2^-(mant + 6) of a unit. -/
def Ty.roundBelow (t : Ty) (mode : Rnd) (sat neg : Bool) (m : Nat) (e : Int) : Nat :=
  t.roundMag mode sat neg (m * 2 ^ (t.mant + 6) - 1) (e - (t.mant + 6 : Nat)) true

/-- A magnitude just above m × 2^e. -/
def Ty.roundAbove (t : Ty) (mode : Rnd) (sat neg : Bool) (m : Nat) (e : Int) : Nat :=
  t.roundMag mode sat neg (m * 2 ^ (t.mant + 6)) (e - (t.mant + 6 : Nat)) true

/-- 2^a (R127). -/
def fexp2Of (t : Ty) (mode : Rnd) (sat : Bool) : Ext → Nat
  | .nan => t.nanCode
  | .inf s => if s then t.signed' false 0 else t.infinite sat false
  | .fin s m e =>
    let a := Ext.fin s m e
    if m = 0 then t.round mode sat (.fin false 1 0)
    else if a.tiny (-(t.mant : Int) - 8) then
      (if s then t.roundBelow mode sat false 1 0 else t.roundAbove mode sat false 1 0)
    else if a.tiny 14 then decideRound t mode sat (exp2Enc a) 64 t.precisions
    else t.roundAbove mode sat false 1 (if s then -16384 else 16384)

/-- log2 a (R127). -/
def flog2Of (t : Ty) (mode : Rnd) (sat : Bool) : Ext → Nat
  | .nan => t.nanCode
  | .inf s => if s then t.nanCode else t.infinite sat false
  | .fin s m e =>
    if m = 0 then t.infinite sat true
    else if s then t.nanCode
    else if m = 2 ^ Nat.log2 m then t.round mode sat (.ofInt ((Nat.log2 m : Int) + e))
    else decideRound t mode sat (log2Enc (.fin s m e)) 64 t.precisions

/-- sin a (R127). -/
def fsinOf (t : Ty) (mode : Rnd) (sat : Bool) : Ext → Nat
  | .nan | .inf _ => t.nanCode
  | .fin s m e =>
    if m = 0 then t.signed' s 0
    else if (Ext.fin s m e).tiny (-(t.mant : Int) - 6) then t.roundBelow mode sat s m e
    else decideRound t mode sat (trigEnc false (.fin s m e)) 64 t.precisions

/-- cos a (R127). -/
def fcosOf (t : Ty) (mode : Rnd) (sat : Bool) : Ext → Nat
  | .nan | .inf _ => t.nanCode
  | .fin s m e =>
    if m = 0 then t.round mode sat (.fin false 1 0)
    else if (Ext.fin s m e).tiny (-(t.mant : Int) - 6) then t.roundBelow mode sat false 1 0
    else decideRound t mode sat (trigEnc true (.fin s m e)) 64 t.precisions

/-- tanh a (R127). -/
def ftanhOf (t : Ty) (mode : Rnd) (sat : Bool) : Ext → Nat
  | .nan => t.nanCode
  | .inf s => t.round mode sat (.fin s 1 0)
  | .fin s m e =>
    let a := Ext.fin s m e
    if m = 0 then t.signed' s 0
    else if a.tiny (-(t.mant : Int) - 6) then t.roundBelow mode sat s m e
    else if a.tiny 7 then decideRound t mode sat (tanhEnc a) 64 t.precisions
    else t.roundBelow mode sat s 1 0

end Sys2Proof
end

