-- ==== Sys2Proof/Config.lean ====
section
/-!
DEFINITION. The values the manual leaves open, each an uninterpreted constant: nothing in Lean can evaluate one or prove
a value of it, so what is proved holds for every value. `fresh` arguments are the plain counter that State holds.
Cryptographic functions that the manual names by their standards are uninterpreted too.
-/
namespace Sys2Proof.Config

/-- Cycles that pass on a core between two readings of `%cyc` (R24; R108 item 8 leaves readings open). -/
opaque cycles : Nat → BitVec 64

/-- The data another device returns for a read of one of its bytes (R192, R348). -/
opaque remoteByte : Nat → Nat → BitVec 8

/-- Byte `i` of the control section that save number `id` writes; its layout is not architected (R377). -/
opaque controlByte : Nat → Nat → BitVec 8

/-- The package key that is generated at each power-up (R350, R391). -/
opaque packageKey : Nat → BitVec 256

/-- The election challenge drawn at random (R358). -/
opaque challenge : Nat → BitVec 512

/-- A die temperature, in units of 1/8 °C, as reported (R358). -/
opaque temperature : Nat → Nat → BitVec 16

/-- The module power, in units of 0.1 W, as reported (R358). -/
opaque modulePower : Nat → BitVec 32

/-- The address the driver or the command processor gives an allocation inside a virtual device's resident quota:
image of an overlay, save areas, spill areas and record-array pools (R248, R260, R290, R377). -/
opaque placement : Nat → Nat

/-- SHA3-512 of bytes (R49, R361). -/
opaque sha3_512 : List (BitVec 8) → BitVec 512

/-- ML-DSA-87 verification: public key, signed digest, signature (R49, R359, R361). -/
opaque mldsaVerify : List (BitVec 8) → BitVec 512 → List (BitVec 8) → Bool

/-- The public key whose digest a signature section names, as the package or a key set holds it (R49). -/
opaque dorayKey : List (BitVec 8)

/-- The package's attestation public key (R364). -/
opaque attestationKey : List (BitVec 8)

/-- Byte `i` of the attestation signature of a digest (R364). -/
opaque attestationByte : BitVec 512 → Nat → BitVec 8

/-- The deviation of a NaN from an infinite reference, or of an infinity from a NaN reference: R105 states none. -/
opaque openDeviation : Nat → Nat → BitVec 32

/-- Whether the trap in which a responder beam ends fixes the status of the asker's launch as TRAP: R370 says that the launch is not affected,
R405 and a row of R407 that it completes with TRAP. -/
opaque responderTrapFixes : Nat → Bool

/-- The unstated value of a register, flag or byte that the manual leaves undefined. -/
opaque freeWord : Nat → BitVec 32

end Sys2Proof.Config
end

