-- ==== Sys2Proof/Machine/Checks.lean ====
section
/-!
DEFINITION. The checks on the decoded fields of a word, each with the reason that R79 gives its breach (R55, R110, R174, R373).
Reasons 0x01 and 0x02, reserved field values and bit [72] cannot be written in an `Instr`; the decoder rejects them. Reasons 0x06 and
0x09 depend on the kernel's declarations and on the beam's mode, which `Limits` carries.
-/
namespace Sys2Proof

/-- What the checks of reasons 0x06 and 0x09 read of the issuing beam (R55, R373). -/
structure Limits where
  vregs   : Nat
  cregs   : Nat
  mcount  : Nat
  handler : Bool
  resume  : Bool
  deriving DecidableEq, Repr

/-- The limits under which no register is beyond its count and every mode is met. -/
def Limits.free : Limits := { vregs := 256 + 32, cregs := 64 + 8, mcount := 16, handler := true, resume := true }

/-- Is the operand a v, c or m register (R67)? -/
def Opnd.isReg : Opnd → Bool
  | .v _ | .c _ | .m _ => true
  | _ => false

/-- Reason 0x05: every operand of a class its position permits; the index of a jix in C (R61). -/
def operandsOk (e : Entry) (h : Head) : Bool :=
  e.d.admits h.d && e.a.admits h.a && e.b.admits h.b &&
    (if h.nas == .jix && !e.cpos then
       (match h.c with
        | .v _ => !h.uni
        | .c _ => h.uni
        | _ => false)
     else e.c.admits h.c)

/-- Are `n` registers from `k` below the count, or trap registers of the handler (R369, R382)? -/
def cregsOk (lim : Limits) (k n : Nat) : Bool :=
  decide (k + n ≤ lim.cregs) ||
    (List.range n).all (fun i => decide (k + i < lim.cregs) || (lim.handler && decide (48 ≤ k + i) && decide (k + i < 64)))

/-- Reason 0x06 for one position: the register it names, and every other that it takes, lies below its declared count (R55). -/
def countOk (lim : Limits) (s : Pos) : Opnd → Bool
  | .v n => decide (n.toNat + max 1 s.span ≤ lim.vregs)
  | .c n => cregsOk lim n.toNat (max 1 s.span)
  | .m n => decide (n.toNat < lim.mcount)
  | _ => true

/-- Reason 0x06 for a word. -/
def countsOk (lim : Limits) (e : Entry) (h : Head) : Bool :=
  countOk lim e.d h.d && countOk lim e.a h.a && countOk lim e.b h.b && countOk lim e.c h.c

/-- How many operand fields hold 0x3FE (R55). -/
def Head.imms (h : Head) : Nat :=
  ([h.d, h.a, h.b, h.c].filter (· == Opnd.imm)).length

/-- Reason 0x07: the uses of IMM (R56, R60, R61, R79, R121, R133, R257, R272). Two fields that hold 0x3FE are a breach of this list, and
not of reason 0x05 (log entry 132). -/
def immOk (op : Op) (e : Entry) (h : Head) : Bool :=
  decide (h.imms ≤ 1) &&
  (h.imms == 0 || !(h.nas == .jmp || h.nas == .call || h.nas == .jix)) &&
  !(h.nas == .jix && e.cpos) &&
  (match op with
   | .movh => decide (h.imm.toNat < 2 ^ 12)
   | .lpad => decide (h.imm.toNat < 2 ^ 10)
   | .topk =>
     decide (1 ≤ topkL h.imm) && decide (topkL h.imm ≤ 16) && decide (1 ≤ topkK h.imm) && decide (topkK h.imm ≤ 8)
       && decide (topkK h.imm ≤ topkL h.imm) && decide (h.imm.toNat = topkL h.imm + 256 * topkK h.imm)
   | _ => true) &&
  (match h.nas with
   | .jix => decide (h.imm.toNat < 2 ^ 10)
   | .jmp | .call => true
   | _ => h.imms != 0 || h.imm == 0)

/-- Reason 0x08: the hint rules of R65 and R67. -/
def hintsOk (h : Head) : Bool :=
  (h.wa || h.a.isReg) && (h.wb || h.b.isReg) && (h.wc || h.c.isReg) && (!h.reuse || h.b.isReg)

/-- Reason 0x09: the handler-only uses (R373). -/
def modeOk (lim : Limits) (op : Op) (h : Head) : Bool :=
  match op with
  | .rte | .ctxsv => lim.handler
  | .ctxld => lim.handler && lim.resume
  | .swrite => !(h.d == .spr .tpc || h.d == .spr .tcause) || lim.handler
  | _ => true

/-! ### FMT values (R140, R174) -/

/-- The type of a type code; codes 0x1C to 0x1F are reserved (R68). -/
def Ty.ofCode : Nat → Option Ty
  | 0x00 => some .i32 | 0x01 => some .i8 | 0x02 => some .i16 | 0x03 => some .i64 | 0x04 => some .i4
  | 0x05 => some .n32 | 0x06 => some .n8 | 0x07 => some .n16 | 0x08 => some .n64 | 0x09 => some .n4
  | 0x0A => some .f32 | 0x0B => some .f64 | 0x0C => some .f16 | 0x0D => some .bf16 | 0x0E => some .e4m3
  | 0x0F => some .e5m2 | 0x10 => some .e3m2 | 0x11 => some .e2m3 | 0x12 => some .e2m1 | 0x13 => some .mxe4m3
  | 0x14 => some .mxe5m2 | 0x15 => some .mxe3m2 | 0x16 => some .mxe2m3 | 0x17 => some .mxe2m1 | 0x18 => some .mxi8
  | 0x19 => some .lum2 | 0x1A => some .lum4 | 0x1B => some .lum7
  | _ => none

/-- The narrow float inputs. -/
def isNarrow : Ty → Bool
  | .f16 | .bf16 | .e4m3 | .e5m2 | .e3m2 | .e2m3 | .e2m1 | .mxe4m3 | .mxe5m2 | .mxe3m2 | .mxe2m3 | .mxe2m1 | .mxi8
  | .lum2 | .lum4 | .lum7 => true
  | _ => false

/-- The integer inputs. -/
def isMatInt : Ty → Bool
  | .i8 | .n8 | .i4 => true
  | _ => false

/-- The legal combinations of R140. -/
def comboOk (a b c : Ty) : Bool :=
  (isNarrow a && isNarrow b && (c == .f32 || c == .f16 || c == .bf16)) || (isMatInt a && isMatInt b && c == .i32) ||
    (a == .f32 && b == .f32 && c == .f32) || (a == .f64 && b == .f64 && c == .f64)

/-- A legal FMT value: formats that go together, a rounding mode, and zeros in the res0 bits. -/
def fmtOk (v : Word) : Bool :=
  match Ty.ofCode (v.toNat / 2 ^ 27), Ty.ofCode (v.toNat / 2 ^ 22 % 32), Ty.ofCode (v.toNat / 2 ^ 17 % 32) with
  | some a, some b, some c => comboOk a b c && decide (v.toNat / 2 ^ 14 % 8 < 5) && v.toNat % 2 ^ 9 == 0
  | _, _, _ => false

/-- Reason 0x04 for an immediate of `fmt`: a value that R140 forbids (R174). A register's value is known at issue only. -/
def Op.valueOk (op : Op) (imm : Option (BitVec 20)) : Bool :=
  match op, imm with
  | .fmt, some x => fmtOk (BitVec.ofNat 32 (x.toNat * 4096))
  | _, _ => true

/-- The lowest reason of R79 that a word's decoded fields breach, or none. -/
def entryReason (lim : Limits) (op : Op) (h : Head) (ms : Mods) : Option (BitVec 8) :=
  let e := op.entry h ms
  if !op.forms.admits h.uni then some 3
  else if !op.modsOk h.uni ms || !op.valueOk (if h.a == .imm then some h.imm else none) then some 4
  else if !operandsOk e h then some 5
  else if !countsOk lim e h then some 6
  else if !immOk op e h then some 7
  else if !hintsOk h then some 8
  else if !modeOk lim op h then some 9
  else none

/-- The lowest reason of R79 that an instruction breaches under given limits; events breach none. -/
def Instr.reason (lim : Limits) (i : Instr) : Option (BitVec 8) :=
  match i.view with
  | some (op, h, ms) => entryReason lim op h ms
  | none => none

end Sys2Proof
end

