-- ==== Sys2Proof/WellFormed.lean ====
section
/-!
DEFINITION. What makes an instruction well formed: some word encodes it.
-/
namespace Sys2Proof

/-- An instruction that some word encodes: no check fails but those that depend on the beam. -/
def WellFormed (i : Instr) : Bool := (i.reason Limits.free).isNone

/-- Is the row an instruction word, rather than an event? -/
def Instr.isWord (i : Instr) : Bool := i.view.isSome

end Sys2Proof
end

