-- ==== Sys2Proof/Decode.lean ====
section
/-!
DEFINITION. The decoder and the encoder of the 96-bit word (R51 to R79). The decoder is total on any bytes and rejects by
the reason of R79; the encoder writes the word of a well-formed instruction from the same tables.
-/
namespace Sys2Proof

/-! ### Field codes -/

/-- Type codes (R68). -/
def Ty.code : Ty → Nat
  | .i32 => 0x00 | .i8 => 0x01 | .i16 => 0x02 | .i64 => 0x03 | .i4 => 0x04
  | .n32 => 0x05 | .n8 => 0x06 | .n16 => 0x07 | .n64 => 0x08 | .n4 => 0x09
  | .f32 => 0x0A | .f64 => 0x0B | .f16 => 0x0C | .bf16 => 0x0D | .e4m3 => 0x0E
  | .e5m2 => 0x0F | .e3m2 => 0x10 | .e2m3 => 0x11 | .e2m1 => 0x12 | .mxe4m3 => 0x13
  | .mxe5m2 => 0x14 | .mxe3m2 => 0x15 | .mxe2m3 => 0x16 | .mxe2m1 => 0x17 | .mxi8 => 0x18
  | .lum2 => 0x19 | .lum4 => 0x1A | .lum7 => 0x1B

/-- Rounding codes (R69). -/
def Rnd.code : Rnd → Nat
  | .rne => 0 | .rtz => 1 | .rdn => 2 | .rup => 3 | .rna => 4 | .rfmt => 5

/-- The rounding of a code; 110 and 111 are reserved (R69). -/
def Rnd.ofCode : Nat → Option Rnd
  | 0 => some .rne | 1 => some .rtz | 2 => some .rdn | 3 => some .rup | 4 => some .rna | 5 => some .rfmt
  | _ => none

/-- Scope codes (R69). -/
def Scope.code : Scope → Nat
  | .beam => 0 | .team => 1 | .cluster => 2 | .dev => 3 | .sys => 4

/-- The scope of a code; 101 to 111 are reserved (R69). -/
def Scope.ofCode : Nat → Option Scope
  | 0 => some .beam | 1 => some .team | 2 => some .cluster | 3 => some .dev | 4 => some .sys
  | _ => none

/-- Ordering codes (R69). -/
def Ordr.code : Ordr → Nat
  | .rlx => 0 | .acq => 1 | .rel => 2 | .ar => 3

/-- The ordering of a code (R69). -/
def Ordr.ofCode : Nat → Option Ordr
  | 0 => some .rlx | 1 => some .acq | 2 => some .rel | 3 => some .ar
  | _ => none

/-- Operation codes of layout MA (R72). -/
def AtomOp.code : AtomOp → Nat
  | .add => 0 | .min => 1 | .max => 2 | .and => 3 | .or => 4 | .xor => 5 | .swap => 6 | .cswap => 7 | .fmin => 8
  | .fmax => 9

/-- The operation of a code; 0xA to 0xF are reserved (R72). -/
def AtomOp.ofCode : Nat → Option AtomOp
  | 0 => some .add | 1 => some .min | 2 => some .max | 3 => some .and | 4 => some .or | 5 => some .xor
  | 6 => some .swap | 7 => some .cswap | 8 => some .fmin | 9 => some .fmax
  | _ => none

/-- Combine codes of layout C (R74). -/
def Comb.code : Comb → Nat
  | .addI64 => 0 | .addF32 => 1 | .maxF32 => 2 | .minF32 => 3 | .or => 4 | .count => 5 | .first => 6

/-- The combine of a code; 111 is reserved (R74). -/
def Comb.ofCode : Nat → Option Comb
  | 0 => some .addI64 | 1 => some .addF32 | 2 => some .maxF32 | 3 => some .minF32 | 4 => some .or | 5 => some .count
  | 6 => some .first
  | _ => none

/-- NAS codes (R59). -/
def Nas.code : Nas → Nat
  | .seq => 0 | .jmp => 1 | .jix => 2 | .call => 3 | .ret => 4 | .exit => 5

/-- The selector of a code; 110 and 111 are illegal (R59). -/
def Nas.ofCode : Nat → Option Nas
  | 0 => some .seq | 1 => some .jmp | 2 => some .jix | 3 => some .call | 4 => some .ret | 5 => some .exit
  | _ => none

/-- Special-register numbers, in the order of R54. -/
def Spr.code : Spr → Nat
  | .tid => 0 | .lane => 1 | .beam => 2 | .team => 3 | .core => 4 | .cyc => 5 | .ext0 => 6 | .ext1 => 7 | .ext2 => 8
  | .emask => 9 | .ekind => 10 | .tcause => 11 | .tpc => 12 | .taddr => 13 | .part => 14 | .fmt => 15

/-- The special register of a number (R54). -/
def Spr.ofCode : Nat → Option Spr
  | 0 => some .tid | 1 => some .lane | 2 => some .beam | 3 => some .team | 4 => some .core | 5 => some .cyc
  | 6 => some .ext0 | 7 => some .ext1 | 8 => some .ext2 | 9 => some .emask | 10 => some .ekind | 11 => some .tcause
  | 12 => some .tpc | 13 => some .taddr | 14 => some .part | 15 => some .fmt
  | _ => none

/-- The 10-bit field of an operand (R54). -/
def Opnd.field : Opnd → Nat
  | .v n => n.toNat
  | .c n => 0x100 + n.toNat
  | .m n => 0x200 + n.toNat
  | .p n => 0x300 + n.toNat
  | .q n => 0x308 + n.toNat
  | .spr r => 0x310 + r.code
  | .imm => 0x3FE
  | .none => 0x3FF

/-- The operand of a 10-bit field, or none for a reserved value (R54). -/
def Opnd.ofField (x : Nat) : Option Opnd :=
  if x < 0x100 then some (.v (BitVec.ofNat 8 x))
  else if x < 0x140 then some (.c (BitVec.ofNat 6 (x - 0x100)))
  else if x < 0x200 then Option.none
  else if x < 0x210 then some (.m (BitVec.ofNat 4 (x - 0x200)))
  else if x < 0x300 then Option.none
  else if x < 0x308 then some (.p (BitVec.ofNat 3 (x - 0x300)))
  else if x < 0x310 then some (.q (BitVec.ofNat 3 (x - 0x308)))
  else if x < 0x320 then (Spr.ofCode (x - 0x310)).map .spr
  else if x = 0x3FE then some .imm
  else if x = 0x3FF then some .none
  else Option.none

/-! ### Modifiers -/

/-- The 12-bit MOD of modifiers (R70 to R75). -/
def Mods.field (op : Op) : Mods → Nat
  | .none => if op = .spawnTry then 0x020 else 0
  | .a k => k.ty.code * 128 + k.rnd.code * 16 + k.sat.toNat * 8 + k.sub.toNat
  | .b k => k.dty.code * 128 + k.sty.code * 4 + k.sat.toNat * 2
  | .m k => k.ty.code * 128 + k.count.toNat * 32 + k.ord.code * 8 + k.scope.code
  | .g k => k.ty.code * 128 + k.promote.toNat * 64 + k.ord.code * 8 + k.scope.code
  | .ma k => k.ty.code * 128 + k.op.code * 8 + k.scope.code
  | .x k => k.size.toNat * 1024 + k.out.toNat * 512
  | .f k => k.ord.code * 8 + k.scope.code
  | .c k => k.code * 512 + 3

/-- The code that modifiers place in the low function bits (R71, R72). -/
def Mods.low : Mods → Nat
  | .b k => k.rnd.code
  | .ma k => k.ord.code
  | _ => 0

/-- The low function bits of a word: group 0x2, `mcvt`, `atom` and the global `red` carry a code there (R71, R72). -/
def Op.low (op : Op) (ms : Mods) : Nat :=
  match op with
  | .unpackb | .atoms | .reds => 0
  | _ => ms.low

/-- The modifiers of a 12-bit MOD under a mnemonic's layout, or none where a code is reserved or a res0 bit is set
(R70 to R76). `low` is the code in the low function bits. -/
def Mods.parse (op : Op) (low x : Nat) : Option Mods :=
  match op.layout with
  | .a => do
    let ty ← Ty.ofCode (x / 128)
    let rnd ← Rnd.ofCode (x / 16 % 8)
    some (.a { ty := ty, rnd := rnd, sat := x / 8 % 2 == 1, sub := BitVec.ofNat 3 (x % 8) })
  | .b => do
    let dty ← Ty.ofCode (x / 128)
    let sty ← Ty.ofCode (x / 4 % 32)
    let rnd ← Rnd.ofCode low
    if x % 2 = 0 then some (.b { dty := dty, sty := sty, rnd := rnd, sat := x / 2 % 2 == 1 }) else Option.none
  | .m => do
    let ty ← Ty.ofCode (x / 128)
    let ord ← Ordr.ofCode (x / 8 % 4)
    let scope ← Scope.ofCode (x % 8)
    some (.m { ty := ty, count := BitVec.ofNat 2 (x / 32 % 4), ord := ord, scope := scope })
  | .g => do
    let ty ← Ty.ofCode (x / 128)
    let ord ← Ordr.ofCode (x / 8 % 4)
    let scope ← Scope.ofCode (x % 8)
    if x / 32 % 2 = 0 then some (.g { ty := ty, promote := x / 64 % 2 == 1, ord := ord, scope := scope }) else Option.none
  | .ma => do
    let ty ← Ty.ofCode (x / 128)
    let o ← AtomOp.ofCode (x / 8 % 16)
    let scope ← Scope.ofCode (x % 8)
    let ord ← Ordr.ofCode low
    some (.ma { ty := ty, op := o, scope := scope, ord := ord })
  | .x => if x % 512 = 0 then some (.x { size := BitVec.ofNat 2 (x / 1024), out := x / 512 % 2 == 1 }) else Option.none
  | .f => do
    let ord ← Ordr.ofCode (x / 8 % 4)
    let scope ← Scope.ofCode (x % 8)
    if x / 32 = 0 then some (.f { ord := ord, scope := scope }) else Option.none
  | .c => do
    let cb ← Comb.ofCode (x / 512)
    if x % 512 = 3 then some (.c cb) else Option.none
  | .zero => if x = (if op = .spawnTry then 0x020 else 0) then some .none else Option.none

/-! ### The word -/

/-- Bits [lo + n - 1 : lo] of a word. -/
def InsnWord.bits (w : InsnWord) (lo n : Nat) : Nat := w.toNat / 2 ^ lo % 2 ^ n

/-- One bit of a word. -/
def InsnWord.bit (w : InsnWord) (lo : Nat) : Bool := InsnWord.bits w lo 1 == 1

/-- The operand fields and the rest of the head, once the selector and the operands are known (R51). -/
def headOf (w : InsnWord) (nas : Nas) (d a b c : Opnd) : Head :=
  { nas := nas, gneg := InsnWord.bit w 82, gidx := BitVec.ofNat 3 (InsnWord.bits w 79 3), uni := InsnWord.bit w 78
    wa := InsnWord.bit w 77, wb := InsnWord.bit w 76, wc := InsnWord.bit w 75, reuse := InsnWord.bit w 74
    yld := InsnWord.bit w 73, d := d, a := a, b := b, c := c, imm := BitVec.ofNat 20 (InsnWord.bits w 0 20) }

/-- The mnemonic of a word: TRY tells the two forms of `spawn` apart (R274). -/
def opOf (w : InsnWord) : Option (Op × Nat) :=
  match Op.ofCode (InsnWord.bits w 86 10) with
  | some (op, low) => some (if op = .spawn ∧ InsnWord.bit w 25 = true then .spawnTry else op, low)
  | none => none

/-- What the decoder makes of a word: the legal fields, or the lowest reason of R79. -/
inductive Decoded where
  | word (op : Op) (h : Head) (ms : Mods)
  | illegal (reason : BitVec 8)
  deriving DecidableEq, Repr

/-- The decoder, with the limits of the beam that issues the word (R79: the lowest reason is reported). -/
def decodeUnder (lim : Limits) (w : InsnWord) : Decoded :=
  match opOf w with
  | none => .illegal 1
  | some (op, low) =>
    match Nas.ofCode (InsnWord.bits w 83 3) with
    | none => .illegal 2
    | some nas =>
      if !op.forms.admits (InsnWord.bit w 78) then .illegal 3
      else match Mods.parse op low (InsnWord.bits w 20 12) with
        | none => .illegal 4
        | some ms =>
          let imm := if InsnWord.bits w 52 10 = 0x3FE then some (BitVec.ofNat 20 (InsnWord.bits w 0 20)) else Option.none
          if !op.modsOk (InsnWord.bit w 78) ms || !op.valueOk imm then .illegal 4
          else match Opnd.ofField (InsnWord.bits w 62 10), Opnd.ofField (InsnWord.bits w 52 10),
              Opnd.ofField (InsnWord.bits w 42 10), Opnd.ofField (InsnWord.bits w 32 10) with
            | some d, some a, some b, some c =>
              let h := headOf w nas d a b c
              match entryReason lim op h ms with
              | none => if InsnWord.bit w 72 then .illegal 8 else .word op h ms
              | some r => if InsnWord.bit w 72 && decide (8 < r.toNat) then .illegal 8 else .illegal r
            | _, _, _, _ => .illegal 5

/-- The instruction of a word, where it is legal but for the checks that depend on the beam. -/
def decodeWord (w : InsnWord) : Option Instr :=
  match decodeUnder Limits.free w with
  | .word op h ms => op.build h ms
  | .illegal _ => none

/-- The lowest reason of R79 under which a beam's word is illegal, or none. -/
def illegalReason (lim : Limits) (w : InsnWord) : Option (BitVec 8) :=
  match decodeUnder lim w with
  | .word _ _ _ => none
  | .illegal r => some r

/-- The little-endian value of bytes (R9). -/
def leNat : List Byte → Nat
  | [] => 0
  | b :: bs => b.toNat + 256 * leNat bs

/-- `n` little-endian bytes of a value (R9). -/
def leBytes : Nat → Nat → List Byte
  | 0, _ => []
  | n + 1, x => BitVec.ofNat 8 x :: leBytes n (x / 256)

/-- The word stored in 12 bytes (R51). -/
def wordOfBytes (bs : List Byte) : InsnWord := BitVec.ofNat 96 (leNat (bs.take 12))

/-- The decoder on bytes: the instruction of the first 12 bytes and the rest, or the reason the word is illegal.
Fewer than 12 bytes hold no word. -/
def decodeBytes (bs : List Byte) : Except (BitVec 8) (Instr × List Byte) :=
  if bs.length < 12 then .error 0
  else
    let w := wordOfBytes bs
    match decodeUnder Limits.free w with
    | .illegal r => .error r
    | .word op h ms =>
      match op.build h ms with
      | some i => .ok (i, bs.drop 12)
      | none => .error 4

/-- The instruction the decoder reads from an instruction whose bits are `w`, numbered as the opcode table numbers them.
The Krester's word is one 96-bit little-endian word, so the numbering is that of R51. -/
def decodeTableWord (nbits w : Nat) : Option Instr :=
  if nbits ≤ 96 then decodeWord (wordOfBytes (leBytes 12 (w % 2 ^ nbits))) else none

/-! ### The encoder -/

/-- The number of a word from its fields, from the low end up (R51). -/
def packWord (code nas gneg gidx uni wa wb wc reuse yld d a b c mod imm : Nat) : Nat :=
  imm + 2 ^ 20 * (mod + 2 ^ 12 * (c + 2 ^ 10 * (b + 2 ^ 10 * (a + 2 ^ 10 * (d + 2 ^ 10 * (0 + 2 * (yld + 2 * (reuse
    + 2 * (wc + 2 * (wb + 2 * (wa + 2 * (uni + 2 * (gidx + 8 * (gneg + 2 * (nas + 8 * code)))))))))))))))

/-- The word of decoded fields. -/
def encodeFields (op : Op) (h : Head) (ms : Mods) : InsnWord :=
  BitVec.ofNat 96 (packWord (op.code + op.low ms) h.nas.code h.gneg.toNat h.gidx.toNat h.uni.toNat h.wa.toNat h.wb.toNat
    h.wc.toNat h.reuse.toNat h.yld.toNat h.d.field h.a.field h.b.field h.c.field (ms.field op) h.imm.toNat)

/-- The word of an instruction; the rows that are events have none. -/
def encode (i : Instr) : Option InsnWord :=
  match i.view with
  | some (op, h, ms) => some (encodeFields op h ms)
  | none => none

/-- The 12 bytes of an instruction (R51). -/
def encodeBytes (i : Instr) : Option (List Byte) := (encode i).map (fun w => leBytes 12 w.toNat)

end Sys2Proof
end

