-- ==== Sys2Proof/Machine/State.lean ====
section
/-!
DEFINITION. The state of a DK-8400 package as plain data: beams, teams and cores; what is in flight between the cores and
the home dies; virtual devices with their queues, launches, graphs and censuses; the command processor, the power governor
and the management processor; the error reasons; and the state right after power-up.

Maps are lists of number and value, in strictly rising order of the number. Fields that are the model's own, and not the
manual's, say so.
-/
namespace Sys2Proof.Machine

/-- A map from numbers: strictly rising keys. -/
abbrev FMap (α : Type) := List (Nat × α)

/-- A 32-bit register with its poison mark (R384). -/
structure Cell32 where
  val : Word := 0
  pz  : Bool := false
  deriving DecidableEq, Repr

/-- A predicate with its poison mark (R384). -/
structure PBit where
  val : Bool := false
  pz  : Bool := false
  deriving DecidableEq, Repr

/-- A matrix register of one thread: shape, format tag, element image, poison mark (R134, R384). -/
structure MReg where
  rows : Nat := 0
  cols : Nat := 0
  tag  : Ty := .f32
  img  : List Byte := []
  pz   : Bool := false
  deriving DecidableEq, Repr

/-! ### Beams -/

/-- The state of a path (R238). -/
inductive PathSt where
  | running
  | suspended (age : Nat)
  | parked
  deriving DecidableEq, Repr

/-- A path of a beam (R238). `top` is its top entry on the reconvergence stack. -/
structure Path where
  mask : Word
  pc   : Word
  fmt  : Word
  part : Word
  top  : Option Nat
  st   : PathSt
  deriving DecidableEq, Repr

/-- An entry of the reconvergence stack (R239). -/
structure StackEntry where
  call   : Bool
  mask   : Word
  addr   : Word
  fmt    : Word
  part   : Word
  parent : Option Nat
  deriving DecidableEq, Repr

/-- The paths, stack and exited threads of a beam: what a trap freezes (R238, R239, R369). `room` is how many of the beam's 32
stack entries are left to it: those that a trap froze stay in use. -/
structure Flow where
  paths  : List Path
  stack  : FMap StackEntry
  ages   : Nat
  exited : Word
  room   : Nat := 32
  deriving DecidableEq, Repr

/-- The kernel's declarations that a beam runs under (R48). -/
structure Decl where
  vregs  : Nat := 8
  cregs  : Nat := 64
  mcap   : Nat := 0
  mcount : Nat := 0
  spad   : Nat := 0
  noinit : Bool := false
  idem   : Bool := false
  resps  : List Word := []
  deriving DecidableEq, Repr

/-- A spawn record that waits for room: lane, bytes and poisoned words (R250, R384). -/
structure SpawnRec where
  lane  : Nat
  bytes : List Byte
  pz    : List Bool
  deriving DecidableEq, Repr

/-- Why a beam is not in the ready set (R246), or that it is. -/
inductive Sleep where
  | ready
  | wait (counter : Nat) (target : Word)
  | bar (b : Nat)
  | cbar (b : Nat)
  | sleeping
  | spawning (node : Nat) (recs : List SpawnRec)
  | saved
  | joining
  | prism
  deriving DecidableEq, Repr

/-- A selector that has not yet taken effect (R60): the head of its instruction, the guard-true threads, and under jix the
thread, table index and target of each of them (R61). -/
structure Sel where
  head    : Head
  gm      : Word
  targets : List (Nat × Nat × Word) := []
  deriving DecidableEq, Repr

/-- Handler mode (R369, R370, R373): the cause, the frozen flow, the selector of the instruction that completed before the
trap, and what the beam was asleep in. -/
structure Handler where
  cause  : BitVec 8
  frozen : Flow
  nas    : Option Sel
  sleep  : Sleep
  pend   : Option Sel
  deriving DecidableEq, Repr

/-- A beam in a slot of a core. `resp` names the responder team it belongs to; `none` is the ordinary team (R309).
`v` and `m` are keyed by lane + 32 × register, `p` likewise; `c` is keyed by register, with the trap registers c48 to c63 of
handler mode at 112 to 127 (R369). `emptyV`, `emptyC` and `emptyM` list the empty registers (R64). `latch` is the register
whose value the reuse latch holds; R65 lets the latch be used only while it equals the register. `pend` is the selector of an
instruction whose operation has not completed (R60); `ordered` a pre-emption order that waits (R368, R370); `drain` the
operations that finish before a handler issues (R111, R147, R211); `planted` says that a v register not yet written reads as
its launch marker (R96); `fetch` that the handler waits for overlay 255 (R369). Keyed by thread, where 32 is the beam's uniform
thread (R195): `joined` names the accesses in flight of other threads that come before the thread's later ones through a uniform
instruction of group 0x7 or 0x8, and `fenced` those that a release fence puts before its later marked writes (R199, R229);
`narrow` lists the threads whose marked writes are narrow releases because of a fence (R199, R203). `missed` lists the pages
whose walk ended in a fault while the beam held for it (R193); `found` says that the instruction which comes to issue has detected an
error in a directory entry or in its own word (R387). -/
structure Beam where
  idx       : Nat
  resp      : Option Nat := none
  gen       : BitVec 16
  decl      : Decl
  flow      : Flow
  v         : FMap Cell32 := []
  c         : FMap Cell32 := []
  m         : FMap MReg := []
  p         : FMap PBit := []
  q         : FMap PBit := []
  emptyV    : List Nat := []
  emptyC    : List Nat := []
  emptyM    : List Nat := []
  emask     : Word := 0
  ekind     : FMap Word := []
  tcause    : Word := 0
  tpc       : Word := 0
  taddr     : DWord := 0
  handler   : Option Handler := none
  sleep     : Sleep := .ready
  latch     : Option Opnd := none
  triggered : Bool := false
  pend      : Option Sel := none
  ordered   : Bool := false
  drain     : List Nat := []
  planted   : Bool := false
  fetch     : Bool := false
  joined    : FMap (List Nat) := []
  fenced    : FMap (List Nat) := []
  narrow    : List Nat := []
  missed    : List Nat := []
  found     : Bool := false
  deriving DecidableEq, Repr

/-! ### Teams and cores -/

/-- A barrier: its generation and the members that have arrived at the current one (R247). -/
structure Barrier where
  gen     : Nat := 0
  arrived : List Nat := []
  deriving DecidableEq, Repr

/-- A team (R234, R235): `ended` lists the beams that have ended; `position` and `cluster` are those of a cluster launch;
`bars` and `cbars` its barriers (R247), each list of arrivals by beam; `entry` says that the command processor still has to
load the entry overlay (R259); `area` is the address of its save area (R377); `stamp` orders the
placements (R294); `array` its record array (R249); `census`
and `lanes` the census slot and responders of a responder team (R309). -/
structure Team where
  vd       : Nat
  launch   : Nat
  index    : Nat := 0
  gen      : BitVec 16 := 0
  decl     : Decl := {}
  beams    : Nat := 1
  ended    : List Nat := []
  position : Option Nat := none
  cluster  : Nat := 0
  ext      : List Word := []
  spad     : List Host.Cell := []
  spadPz   : List Nat := []
  bars     : FMap Barrier := []
  cbars    : FMap Barrier := []
  entry    : Bool := false
  area     : Option Nat := none
  stamp    : Nat := 0
  array    : Option (Nat × Nat × Nat) := none
  census   : Option Nat := none
  lanes    : List Nat := []
  deriving DecidableEq, Repr

/-- An instruction-store slot: the overlay it holds with its words and image address, or the load in flight (R259). `stale` lists the
words found in error, which are fetched again before they issue (R383), and `digest` is the overlay's (R363). -/
structure Slot where
  overlay : Option Nat := none
  loading : Option Nat := none
  words   : List InsnWord := []
  image   : Nat := 0
  stale   : List Nat := []
  digest  : BitVec 512 := 0
  deriving DecidableEq, Repr

/-- A local-directory entry (R304). STATE is 0 free, 1 valid, 2 moving out, 3 incoming. -/
structure DirEntry where
  answered : BitVec 64 := 0
  state    : Nat := 0
  addr     : BitVec 56 := 0
  len      : Word := 0
  tag      : Word := 0
  key      : DWord := 0
  deriving DecidableEq, Repr

/-- A cached translation: virtual device, page base, log2 of the page size, leaf entry (R192, R345). -/
structure Trans where
  vd   : Nat
  page : Nat
  log  : Nat
  leaf : BitVec 64
  deriving DecidableEq, Repr

/-- Eight bytes as they were at some moment, with the mark of their granule, which a relaxed load of one thread of a core may still return
(R176, R200): the beam's slot, the thread, where 32 is the uniform thread, the address in units of 8 bytes, and whether it lies in the
scratchpad allocation of the beam's team. -/
structure Older where
  slot   : Nat
  thread : Nat
  gran   : Nat
  data   : List Byte
  pz     : Bool
  spad   : Bool := false
  deriving DecidableEq, Repr

/-- A core (R16). `beams` is keyed by slot, 16 slots to a quadrant (R17); `resps` by responder team; `kept` are the
allocations of teams that ended while copies of theirs were in flight, with their team slots (R252); `beamGens` and
`teamGen` the generation tags (R237); `sample` and `rr` are kept per quadrant (R104, R246). `older` is the model's own: bytes as they
were at some moment, which relaxed loads of threads of the core may still return (R176, R200). -/
structure Core where
  beams    : FMap Beam := []
  team     : Option Team := none
  resps    : FMap Team := []
  kept     : List (Option Nat × Team) := []
  beamGens : FMap (BitVec 16) := []
  teamGen  : BitVec 16 := 0
  counters : FMap Word := []
  slots    : FMap Slot := []
  dir      : FMap DirEntry := []
  tlb      : List Trans := []
  cyc      : DWord := 0
  sample   : FMap Word := []
  rr       : FMap Nat := []
  older    : List Older := []
  retired  : Bool := false
  deriving DecidableEq, Repr

/-! ### In flight -/

/-- The beam an operation in flight belongs to, by slot and generation tag (R237). -/
structure BeamRef where
  core : Nat
  slot : Nat
  gen  : BitVec 16
  deriving DecidableEq, Repr

/-- Registers by class. -/
structure Names where
  v : List Nat := []
  c : List Nat := []
  m : List Nat := []
  deriving DecidableEq, Repr

/-- Register values to be written: keys are lane + 32 × register for v, m and p, and the register for c and q. -/
structure RegOut where
  v : List (Nat × Cell32) := []
  c : List (Nat × Cell32) := []
  m : List (Nat × MReg) := []
  p : List (Nat × PBit) := []
  q : List (Nat × PBit) := []
  deriving DecidableEq, Repr

/-- What a prism instruction does to `%emask` and `%ekind` when it completes, and the telemetry it may leave (R104, R105,
R145, R146), with the virtual device and launch of its beam, which may have exited by then, the tag of its ordinary team, the threads of
the path that issued it, and whether that was a handler's (R106, R388). -/
structure PrismOut where
  pc     : Word
  mask   : Word
  exc    : Word
  kinds  : List (Nat × Word)
  mte    : Bool
  sample : Option (BitVec 256)
  vd     : Nat
  launch : Nat
  team   : Option (BitVec 16)
  path   : Word := 0
  handled : Bool := false
  deriving DecidableEq, Repr

/-- A result in flight: the registers it fills and the values it writes (R64, R111, R142). `reads` lists the threads that made
the marked read whose result it is (R229); `drop` names the virtual device that counts the result where it is dropped, for a
status (R189). -/
structure Fill where
  id    : Nat
  beam  : BeamRef
  names : Names
  out   : RegOut
  prism : Option PrismOut
  gop   : Option Nat
  reads : List Nat := []
  drop  : Option Nat := none
  deriving DecidableEq, Repr

/-- One lane of a global access: physical address, or the virtual address on a peer device. -/
structure LaneAcc where
  lane : Nat
  va   : Nat
  pa   : Nat
  dev  : Nat
  val  : DWord
  cmp  : DWord
  pz   : Bool
  deriving DecidableEq, Repr

/-- What a global access does at the home die (R195). -/
inductive GKind where
  | load
  | store
  | rmw (op : AtomOp) (ty : Ty) (ret : Bool)
  deriving DecidableEq, Repr

/-- A global access in flight (R195, R245). A lane's `lane` is 32 for the beam's uniform thread. `after` names what must be
performed first (R198 to R206); `done` says that the lanes on this package have been performed, `acked` that the lanes on
other devices have been acknowledged (R206); `got` holds what each lane was returned, with its mark; `narrow` lists the threads
whose write is a narrow release (R203), `resp` and `team` say which team made it, and `counted` says that its instruction has been counted as
one that met poison (R387). -/
structure GOp where
  id     : Nat
  beam   : BeamRef
  vd     : Nat
  launch : Nat
  kind   : GKind
  size   : Nat
  lanes  : List LaneAcc
  ord    : Ordr
  scope  : Scope
  after  : List Nat
  done   : Bool
  acked  : Bool
  got    : List (Nat × DWord × Bool)
  dest   : Option Nat
  narrow : List Nat := []
  resp   : Option Nat := none
  team   : BitVec 16 := 0
  counted : Bool := false
  deriving DecidableEq, Repr

/-- A piece of a row within one line: the device that holds it, its address there, its bytes and their mark (R224). -/
structure Piece where
  dev  : Nat
  addr : Nat
  data : List Byte
  pz   : Bool
  deriving DecidableEq, Repr

/-- Where a row of a copy stands (R188, R192): the next address to translate, with the pieces found and the lowest address
that failed protection; all pieces; or the failure. -/
inductive RowSt where
  | walking (va : Nat) (pieces : List Piece) (bad : Option Nat)
  | ready (pieces : List Piece)
  | failed (code va : Nat)
  deriving DecidableEq, Repr

/-- One lane or row of a copy: global address, scratchpad offset, length; for a copy out, the bytes read at issue and the
poisoned scratchpad words among them (R198, R221 to R224). `free` is the number of the free bytes that it reads on other devices: the
lanes of a per-lane copy share one, for they share their transfers (R181); `met` says that it has read poison, whatever becomes of it (R387). -/
structure Row where
  key  : Nat
  va   : Nat
  off  : Nat
  len  : Nat
  data : List Byte
  pz   : List Nat
  st   : RowSt
  free : Nat := 0
  met  : Bool := false
  deriving DecidableEq, Repr

/-- The copies of the copy unit. -/
inductive CopyKind where
  | lanes
  | near
  | bulk
  deriving DecidableEq, Repr

/-- A copy in flight (R186 to R189, R221 to R225). `word` is the arrival word: device, address and virtual address; `early`
its failure; `names` the status registers; `after` what must be performed first (R205); `counted` says that its instruction has been
counted as one that met poison (R387). -/
structure Copy where
  id      : Nat
  beam    : BeamRef
  resp    : Option Nat
  teamGen : BitVec 16
  vd      : Nat
  launch  : Nat
  kind    : CopyKind
  out     : Bool
  rows    : List Row
  counter : Option Nat
  word    : Option (Nat × Nat × Nat)
  early   : Option (Nat × Nat)
  names   : Names
  after   : List Nat
  counted : Bool := false
  deriving DecidableEq, Repr

/-- A loaded overlay (R46, R361): image address, words in it, digest, container. -/
structure Overlay where
  cont   : Nat
  image  : Nat
  count  : Nat
  digest : BitVec 512
  deriving DecidableEq, Repr

/-- An overlay load in flight (R260). `names` is the status register of an `ovl`; `fetch` marks a load of overlay 255 that a
handler waits for (R369); a load of the command processor has no beam, `team` is the tag of the team that it is for, and `entry` the
launch of that team (R259). `wait` is the address whose walk it waits for, `trans` and `missed` what its walks have given: translations,
and 64 KiB pages without one (R193); `launch` is the launch of the `ovl`, and `counted` says that its instruction has been counted as
one that met poison (R387); `img` is the overlay as it stood when the load was issued, if it was loaded then. -/
structure OvlLoad where
  id    : Nat
  core  : Nat
  slot  : Nat
  vd    : Nat
  ovl   : Nat
  beam  : Option BeamRef
  names : Names
  fetch : Bool
  team  : Option (BitVec 16) := none
  wait  : Option Nat := none
  trans : List Trans := []
  missed : List Nat := []
  launch : Option Nat := none
  img    : Option Overlay := none
  entry  : Option Nat := none
  counted : Bool := false
  deriving DecidableEq, Repr

/-- An arrival in flight to a counter of a core (R190). `after` names the writes that must be performed first (R230). -/
structure Arrival where
  id      : Nat
  vd      : Nat
  core    : Nat
  counter : Nat
  amount  : Word
  tag     : BitVec 16
  launch  : Nat
  team    : Nat
  after   : List Nat
  deriving DecidableEq, Repr

/-- A page walk in flight, or queued behind the 512 of its die (R193): the address whose miss began it, its page, as a number in
pages of 2^log bytes, and the beams that hold at issue for it, each with the address it waits for. -/
structure Walk where
  id    : Nat
  vd    : Nat
  die   : Nat
  va    : Nat
  page  : Nat
  log   : Nat
  beams : List (BeamRef × Nat) := []
  deriving DecidableEq, Repr

/-- The steps of a move (R314). -/
inductive MoveSt where
  | requested
  | granted (index : Nat)
  | refused
  | committed (index : Nat) (e : DirEntry)
  | acked (index : Nat) (e : DirEntry) (credits : List Nat)
  deriving DecidableEq, Repr

/-- A directory move in flight (R314). -/
structure Move where
  id   : Nat
  vd   : Nat
  src  : Nat
  idx  : Nat
  dst  : Nat
  addr : Option (BitVec 56)
  beam : BeamRef
  lane : Option Nat
  fill : Nat
  st   : MoveSt
  deriving DecidableEq, Repr

/-! ### Censuses -/

/-- A responder of a census (R309, R310). `batch` names the group that shares its beam; `msg` is its message on the way to
the router, a value or an error; `closed` says that it answers no more. -/
structure Resp where
  id     : Nat
  batch  : Nat
  core   : Nat
  index  : Nat
  entry  : DirEntry
  placed : Bool
  msg    : Option (Option DWord)
  closed : Bool
  deriving DecidableEq, Repr

/-- A census in a slot, or waiting for one (R307 to R313). `clearing` says that it closes, its answered bits being cleared, and names the
commits sent with one that are still to be installed (R312). -/
structure Census where
  vd       : Nat
  launch   : Nat
  beam     : BeamRef
  names    : Names
  comb     : Comb
  key      : DWord
  mask     : DWord
  arg      : Word
  entry    : Word
  decl     : Decl
  scanned  : List Nat
  waits    : FMap (List Nat)
  reported : List Nat
  counted  : FMap Nat
  expected : Nat
  resps    : List Resp
  held     : Option DWord
  answers  : Nat
  errors   : Nat
  clearing : Option (List Nat) := none
  deriving DecidableEq, Repr

/-! ### Queues, launches and graphs -/

/-- A warm-start slot: its buffers and phase (R286). -/
structure Warm where
  bufA  : Nat
  bufB  : Nat
  phase : Bool
  deriving DecidableEq, Repr

/-- Why a mapped thread is blocked (R280). -/
inductive Blocked where
  | no
  | value (addr : Nat)
  | work
  | empty
  deriving DecidableEq, Repr

/-- A queue, with the command processor's own copies of HEAD and STATUS (R281, R284). `desc` and `base` are virtual
addresses; `line` is the line of TAIL (R336); `since` orders the moments at which its thread blocked or its last work ended, and
`mapped` those at which it was mapped (R282); `warm` its warm-start slots (R286); `dline` the deadline of its next launch; `deficit` its D (R292). -/
structure Queue where
  desc    : Nat
  base    : Nat
  log2n   : Nat
  ctx     : Nat
  wdog    : Nat
  quant   : Nat
  slice   : Nat
  prio    : Nat
  line    : Nat
  head    : Nat := 0
  status  : Nat := 0
  thread  : Option Nat := none
  since   : Nat := 0
  mapped  : Nat := 0
  blocked : Blocked := .no
  warm    : FMap Warm := []
  dline   : Nat := 0
  deficit : Int := 0
  deriving DecidableEq, Repr

/-- The states of a launch (R297). -/
inductive LaunchSt where
  | queued | dispatched | running | draining | done
  deriving DecidableEq, Repr

/-- A saved team: barrier state, counter images and the arrivals kept for it (R190, R276, R296). `beams` holds the beams that
have not ended, by number, as they were saved: what their resume traps report (R369). -/
structure SavedTeam where
  team     : Team
  counters : FMap Word
  beams    : FMap Beam
  deriving DecidableEq, Repr

/-- Where a started team of a launch stands (R297). -/
inductive TeamSt where
  | resident (core : Nat)
  | discarding (core : Nat)
  | saving (core : Nat)
  | saved (s : SavedTeam)
  | ended
  | killed
  deriving DecidableEq, Repr

/-- A launch (R285, R297). `bin` says that its teams start from its node's bin, and `recs` holds the record array and the
number of records of each such team (R249); `trig` the beams that have triggered, as 32 × team + beam (R277); `again` the teams
that a discard returned, and `next` the first team never started (R295); `placed` the placed teams in the order of placement;
`dies` the dies on which a team of it has been placed (R293); `ovls` the overlays from which its instructions issued, with their
digests (R363); `fw` the digest of the firmware at dispatch
(R391); `entered` the cores on which a team of it has issued, and `retry` those on which the load of its entry overlay failed, so that it
is tried again (R259). -/
structure Launch where
  queue   : Nat
  packet  : BitVec 512
  node    : Option (Nat × Nat)
  st      : LaunchSt := .queued
  number  : Option Nat := none
  handle  : Nat := 0
  args    : List Word := []
  ext     : List Nat := []
  count   : Nat := 0
  next    : Nat := 0
  again   : List Nat := []
  teams   : FMap TeamSt := []
  placed  : List Nat := []
  dies    : List Nat := []
  killed  : Nat := 0
  code    : Option Nat := none
  dline   : Nat := 0
  stat    : Option Nat := none
  trig    : List Nat := []
  trigged : Bool := false
  poison  : Nat := 0
  ovls    : FMap (BitVec 512) := []
  areas   : Option Nat := none
  bin     : Bool := false
  recs    : FMap (Nat × Nat) := []
  fw      : BitVec 512 := 0
  entered : List Nat := []
  retry   : List Nat := []
  deriving DecidableEq, Repr

/-- A copy packet in flight (R283, R301). -/
structure PktCopy where
  id    : Nat
  vd    : Nat
  queue : Nat
  src   : Nat
  dst   : Nat
  len   : Nat
  stat  : Nat
  node  : Option (Nat × Nat)
  deriving DecidableEq, Repr

/-- Where a node of a graph stands (R291). -/
inductive NodeSt where
  | waiting
  | running
  | done (code : Nat)
  deriving DecidableEq, Repr

/-- A node of a graph with its spawn bin: `bin` is the buffer and `excess` the spill area, `timing` says that the coalescing
timer runs and `due` that it has expired, `arrays` are the record arrays in use and `pool` the address of the first (R248,
R249, R290). -/
structure Node where
  packet : BitVec 512
  succ   : BitVec 256
  npred  : Nat
  hasBin : Bool
  rsize  : Nat
  spill  : Nat
  timer  : Nat
  st     : NodeSt := .waiting
  launch : Option Nat := none
  bin    : List SpawnRec := []
  excess : List SpawnRec := []
  timing : Bool := false
  due    : Bool := false
  starts : Nat := 0
  arrays : List Nat := []
  pool   : Nat := 0
  deriving DecidableEq, Repr

/-- A graph (R290). -/
structure Graph where
  queue : Nat
  stat  : Nat
  nodes : FMap Node
  done  : Bool := false
  deriving DecidableEq, Repr

/-! ### Virtual devices -/

/-- A loaded kernel (R48): its container, its declarations and entry. -/
structure Kernel where
  cont  : Nat
  decl  : Decl
  entry : Word
  deriving DecidableEq, Repr

/-- A loaded jump table (R47). -/
structure JTab where
  cont    : Nat
  entries : List Word
  deriving DecidableEq, Repr

/-- The power states of a virtual device (R335). -/
inductive PowerSt where
  | awake | collapsing | collapsed | waking
  deriving DecidableEq, Repr

/-- A shape variable with its mark (R289, R384). -/
structure ShapeVar where
  val : DWord := 0
  pz  : Bool := false
  deriving DecidableEq, Repr

/-- The first team placed since a wake: the die on which it was placed, its launch and number, and whether an instruction of it has issued
(R336). -/
structure FirstTeam where
  die    : Nat
  launch : Nat
  team   : Nat
  issued : Bool := false
  deriving DecidableEq, Repr

/-- A virtual device (R327, R328). `recKept` and `recNext` are the job records kept and the next SEQ (R365); `stage` is how many
steps of its collapse are done (R335); `notices` and `counting` are the dies that a wake notice is on its way to and those that have
it, `faulted` says whether this wake has been reported, `woke` lists the dies on which no team has been placed since, `wokeBy` names
the first team placed since, and `served` says that no queue of a wake waits to be mapped first (R282, R336, R339,
R340); `turn` is the turn order of its queues (R292). -/
structure VDev where
  descr    : BitVec 1024
  ptroot   : Nat := 0
  peers    : FMap (BitVec 128) := []
  vars     : FMap ShapeVar := []
  overlays : FMap Overlay := []
  jtabs    : FMap JTab := []
  kernels  : FMap Kernel := []
  nextK    : Nat := 0
  conts    : Nat := 0
  queues   : FMap Queue := []
  nextQ    : Nat := 0
  launches : FMap Launch := []
  nextL    : Nat := 0
  nextNum  : Nat := 0
  graphs   : FMap Graph := []
  nextG    : Nat := 0
  slots    : FMap Census := []
  waiting  : List Census := []
  errq     : List (BitVec 256) := []
  overflow : DWord := 0
  dropped  : DWord := 0
  poisoned : DWord := 0
  retries  : DWord := 0
  recBase  : Nat := 0
  recLog   : Nat := 4
  recKept  : List (Nat × List Byte) := []
  recNext  : Nat := 0
  power    : PowerSt := .awake
  stage    : Nat := 0
  notices  : List Nat := []
  counting : List Nat := []
  faulted  : Bool := false
  woke     : List Nat := []
  wokeBy   : Option FirstTeam := none
  served   : Bool := true
  turn     : List Nat := []
  deriving DecidableEq, Repr

/-! ### Command processor, governor, management -/

/-- A command-processor thread: the queue it maps and its firmware (R280, R391). -/
structure Thread where
  queue : Option (Nat × Nat) := none
  fw    : Option (BitVec 512) := none
  next  : Option (BitVec 512) := none
  deriving DecidableEq, Repr

/-- A key set (R351). -/
structure KeySet where
  k1   : BitVec 256
  k2   : BitVec 256
  keys : List (List Byte)
  deriving DecidableEq, Repr

/-- A shared pooled range and its grants: virtual device and whether it may write (R362). -/
structure Shared where
  base   : Nat
  gib    : Nat
  keyset : Nat
  grants : FMap Bool
  deriving DecidableEq, Repr

/-- Bytes that a deleted shared range left in memory, under its key pair (R350, R362): base, length in bytes, K1, K2. -/
structure Sealed where
  base : Nat
  len  : Nat
  k1   : BitVec 256
  k2   : BitVec 256
  deriving DecidableEq, Repr

/-- What an association is bound to (R354). -/
inductive Binding where
  | none | mgmt | vdev (v : Nat)
  deriving DecidableEq, Repr

/-- An association (R354): the digest of its host's key, its binding, its salt and its replay window. -/
structure Assoc where
  host    : BitVec 512
  bound   : Binding := .none
  salt    : BitVec 32
  top     : Nat := 0
  seen    : List Nat := []
  dropped : Nat := 0
  told    : Bool := false
  deriving DecidableEq, Repr

/-- The states of a port (R353, R392). -/
inductive PortSt where
  | secure | calibrating | failed
  deriving DecidableEq, Repr

/-- A management response (R358). -/
structure MResp where
  assoc  : Option Nat
  header : BitVec 512
  body   : List Byte
  deriving DecidableEq, Repr

/-- An invalidation in progress (R349), for one that revokes a grant with the number of its shared range (R362). -/
structure Inval where
  id    : Nat
  vd    : Nat
  first : Nat
  len   : Nat
  req   : MReq
  ops   : List Nat
  range : Option Nat := none
  deriving DecidableEq, Repr

/-- The management processor (R355 to R365, R391 to R393). `owner` is the list index with which the owner was elected, and `ownerKey`
the digest of its key: a later entry in the list makes no other host the owner (R360); `held` are the requests to load a container that
a port holds, and `packets` the packets from outside that one holds (R392); `left` what deleted shared ranges left behind (R350). -/
structure Mgmt where
  listed   : FMap (BitVec 512) := []
  owner    : Option Nat := none
  ownerKey : BitVec 512 := 0
  open_    : Bool := true
  claims   : List (Nat × BitVec 512) := []
  chall    : Nat := 0
  handover : Option (Nat × Nat) := none
  assocs   : FMap Assoc := []
  keysets  : FMap KeySet := []
  nextKey  : Nat := 0
  shared   : FMap Shared := []
  ports    : FMap PortSt := []
  devices  : List (Nat × Nat × Nat) := []
  sent     : List MResp := []
  invals   : List Inval := []
  held     : List MReq := []
  packets  : List Packet := []
  left     : List Sealed := []
  keyEpoch : Nat := 0
  ideKeys  : FMap Nat := []
  spares   : FMap Nat := []
  gone     : List Nat := []
  deriving DecidableEq, Repr

/-- The governor of one die: operating point, its limit, whether the regulator is stable, the teams that are held for it, by core and
tag, and its counter (R23, R24, R26, R293). -/
structure Gov where
  point  : Nat := 0
  limit  : Nat := 0
  stable : Bool := true
  held   : List (Nat × BitVec 16) := []
  cyc    : DWord := 0
  deriving DecidableEq, Repr

/-- A granule in which an uncorrectable error may be found (R383). `good` are the bits that are not in error; `cached` says that
the line was found in a die cache; `by_` is the slot of the beam of the core whose instruction detects an error that leaves no mark. -/
inductive Granule where
  | v (core slot reg lane : Nat) (good : Word)
  | c (core slot reg : Nat) (good : Word)
  | m (core slot reg lane elem : Nat)
  | p (core slot n lane : Nat)
  | q (core slot n : Nat)
  | spad (core : Nat) (resp : Option Nat) (word : Nat) (good : BitVec 64)
  | line (line : Nat) (cached : Bool)
  | store (core slot index : Nat) (by_ : Option Nat)
  | dir (core index : Nat) (by_ : Option Nat)
  deriving DecidableEq, Repr

/-- What happens next (the model's own): a beam's quadrant comes to issue, an event happens, an error is found, bytes of memory or of the
scratchpad are noted as they stand for a relaxed load of a thread that may return them later (R176, R200), one more step of a collapse is
done (R335), or the time to accept a handover ends (R360). -/
inductive Act where
  | issue (core slot : Nat)
  | event (i : Instr)
  | error (g : Granule)
  | keep (core slot thread gran : Nat)
  | keepSpad (core slot thread gran : Nat)
  | collapse (vd : Nat)
  | lapse
  deriving DecidableEq, Repr

/-- Why a step has no next state and stops as a fault. Nothing in the manual stops a package: every condition it
describes is a trap, a status, an exception or an error-queue entry, so no meaning answers a fault. -/
inductive Fault where
  /-- Raised by nothing; it keeps the type inhabited. Safe. -/
  | unreachable
  deriving DecidableEq, Repr

/-- Why a step is refused. -/
inductive Refusal where
  /-- Raised by `exec`'s arms for an instruction that has no meaning yet. Safe. -/
  | notModelled (mnemonic : String)
  /-- Raised by the meaning of an instruction word when no beam issues it: the state's `cur` names no beam of a core
  that has a running path. Instruction words are issued by beams only (R57). Safe. -/
  | noIssuingBeam
  deriving DecidableEq, Repr

/-- Who made the last narrow release to a line (R203): the core, and the team by its slot and generation tag. -/
structure Narrow where
  core : Nat
  resp : Option Nat
  gen  : BitVec 16
  deriving DecidableEq, Repr

/-- The package. -/
structure State where
  cores    : FMap Core
  mem      : List Host.Cell
  linePz   : List Nat
  wakeBits : FMap (Nat × Bool)
  /-- The record that each home die keeps of the last narrow release to a line (R183, R203), by die and line. -/
  narrow   : FMap (FMap Narrow)
  dtu      : FMap (List Trans)
  walks    : List Walk
  fills    : List Fill
  gops     : List GOp
  copies   : List Copy
  ovls     : List OvlLoad
  arrivals : List Arrival
  moves    : List Move
  pcopies  : List PktCopy
  /-- The model's own: what each save block's control section stands for (R377), by save: virtual device and beam. -/
  blocks   : FMap (Nat × Beam)
  vds      : FMap VDev
  threads  : FMap Thread
  gov      : FMap Gov
  /-- The command-processor counter (R24). -/
  cpCyc    : DWord
  mgmt     : Mgmt
  /-- The model's own: which agents move next, in order. -/
  agenda   : List Act
  /-- The model's own: the core and slot of the beam that issues. -/
  cur      : Option (Nat × Nat)
  /-- The model's own: the counter at which free values are taken. -/
  fresh    : Nat
  /-- The model's own: the next name for something in flight. -/
  nextId   : Nat
  /-- The model's own: the rounds that have begun. -/
  beat     : Nat
  /-- The model's own: what is still to come to move in this round. -/
  round    : List Act
  /-- The model's own: the timers still to come round. -/
  clock    : List Instr
  deriving DecidableEq, Repr

/-- The package right after power-up (R304, R335, R359, R391): no virtual device, no queue, no firmware; an election is
open; nothing is in flight. -/
def State.reset : State :=
  { cores := [], mem := [], linePz := [], wakeBits := [], narrow := [], dtu := [], walks := [], fills := [], gops := [], copies := []
    ovls := [], arrivals := [], moves := [], pcopies := [], blocks := [], vds := [], threads := [], gov := [], cpCyc := 0
    mgmt := {}, agenda := [], cur := none, fresh := 1, nextId := 0, beat := 0, round := [], clock := [] }

end Sys2Proof.Machine
end

