-- ==== Sys2Proof/Machine/Map.lean ====
section
/-!
DEFINITION. Maps from numbers, and memory as a canonical list of address and byte.
-/
namespace Sys2Proof.Machine

/-- The value at a key. -/
def FMap.look {α : Type} : FMap α → Nat → Option α
  | [], _ => none
  | (k, v) :: m, j => if j = k then some v else FMap.look m j

/-- The value at a key, or the default of the map. -/
def FMap.getD {α : Type} (m : FMap α) (k : Nat) (d : α) : α := (FMap.look m k).getD d

/-- The map with a key's value set, in rising order of keys. -/
def FMap.put {α : Type} : FMap α → Nat → α → FMap α
  | [], k, v => [(k, v)]
  | (k', v') :: m, k, v =>
    if k = k' then (k, v) :: m
    else if k < k' then (k, v) :: (k', v') :: m
    else (k', v') :: FMap.put m k v

/-- The map without a key. -/
def FMap.del {α : Type} (m : FMap α) (k : Nat) : FMap α := m.filter (fun e => e.1 != k)

/-- The map with a function applied at a key that it holds. -/
def FMap.upd {α : Type} (m : FMap α) (k : Nat) (f : α → α) : FMap α := m.map (fun e => if e.1 = k then (e.1, f e.2) else e)

/-- A list without repeats with an element in it. -/
def markIn (l : List Nat) (g : Nat) : List Nat := if l.contains g then l else l ++ [g]

/-- The keys. -/
def FMap.keys {α : Type} (m : FMap α) : List Nat := m.map (·.1)

/-- The lowest number below a bound that is no key. -/
def FMap.free {α : Type} (m : FMap α) (bound : Nat) : Option Nat :=
  (List.range bound).find? (fun k => (FMap.look m k).isNone)

/-! ### Memory -/

/-- A list of cells. -/
abbrev Memory := List Host.Cell

/-- What a byte that nothing has written reads as: zero (log entry 2). -/
def Memory.unlisted : Byte := 0

/-- The byte at an address. -/
def Memory.read (m : Memory) (a : Nat) : Byte := FMap.getD (α := Byte) m a Memory.unlisted

/-- Memory with the byte at an address written, in canonical form: no entry holds what an unlisted address reads as. -/
def Memory.write (m : Memory) (a : Nat) (b : Byte) : Memory :=
  if b = Memory.unlisted then FMap.del (α := Byte) m a else FMap.put (α := Byte) m a b

/-- `n` bytes from an address, lowest first (R9). -/
def Memory.readN (m : Memory) (a : Nat) : Nat → List Byte
  | 0 => []
  | n + 1 => Memory.read m a :: Memory.readN m (a + 1) n

/-- Bytes written from an address up (R9). -/
def Memory.writeN (m : Memory) (a : Nat) : List Byte → Memory
  | [] => m
  | b :: bs => Memory.writeN (Memory.write m a b) (a + 1) bs

/-- Are the keys of a list strictly rising? -/
def risingFrom (m : List Host.Cell) : Bool :=
  match m with
  | [] => true
  | [_] => true
  | (a, _) :: (b, y) :: rest => decide (a < b) && risingFrom ((b, y) :: rest)

/-- The canonical form: addresses strictly rising, and no entry equal to what an unlisted address reads as. -/
def Memory.wf (m : Memory) : Bool := risingFrom m && m.all (fun e => e.2 != Memory.unlisted)

/-- An element placed before the first that does not precede it. -/
def insertBy {α : Type} (before : α → α → Bool) (x : α) : List α → List α
  | [] => [x]
  | y :: l => if before y x then y :: insertBy before x l else x :: y :: l

/-- A list in the order of a strict relation, elements that it does not tell apart in their own order. -/
def sortBy {α : Type} (before : α → α → Bool) (l : List α) : List α :=
  l.foldl (fun acc x => insertBy (fun y x => !before x y) x acc) []

/-! ### Lane masks -/

/-- The lanes of a mask, in ascending order. -/
def lanesOf (mask : Word) : List Nat := (List.range 32).filter (fun i => mask.getLsbD i)

/-- The mask of a predicate on lanes. -/
def maskOf (f : Nat → Bool) : Word :=
  (List.range 32).foldl (fun m i => if f i then m ||| (1#32 <<< i) else m) 0

/-- The mask of one lane. -/
def laneBit (i : Nat) : Word := 1#32 <<< i

end Sys2Proof.Machine
end

