-- ==== Sys2Proof/Machine/Flow.lean ====
section
/-!
DEFINITION. Paths and the reconvergence stack of a beam: what the next-address selector does to them (R59 to R63, R238 to
R243).
-/
namespace Sys2Proof.Machine

/-! ### Code addresses (R52) -/

/-- The overlay id of a code address. -/
def ovlOf (a : Word) : Nat := a.toNat / 2 ^ 24

/-- The instruction index of a code address. -/
def idxOf (a : Word) : Nat := a.toNat % 2 ^ 13

/-- The code address of an index of an overlay. -/
def codeAddr (ovl idx : Nat) : Word := BitVec.ofNat 32 (ovl * 2 ^ 24 + idx)

/-- The sequential successor of a code address. -/
def nextAddr (a : Word) : Word := codeAddr (ovlOf a) (idxOf a + 1)

/-- The last index a slot can hold (R52). -/
def lastIdx : Nat := 5460

/-- The index that a signed offset in instructions reaches from an address (R59, R256). -/
def offsetIdx (a : Word) (imm : BitVec 20) : Int := (idxOf a : Int) + imm.toInt

/-- Is the index one that a slot can hold (R59)? -/
def idxOk (i : Int) : Bool := decide (0 ≤ i) && decide (i ≤ lastIdx)

/-! ### The stack -/

/-- The entries from a path's top entry down to the root (R239). -/
def chainOf (st : FMap StackEntry) : Nat → Option Nat → List Nat
  | 0, _ => []
  | _, none => []
  | n + 1, some e =>
    match st.look e with
    | some x => e :: chainOf st n x.parent
    | none => []

/-- The entries a path stands under: at most the 32 of the pool. -/
def Flow.chain (f : Flow) (top : Option Nat) : List Nat := chainOf f.stack 33 top

/-- The innermost call entry of a path (R62). -/
def Flow.callEntry (f : Flow) (top : Option Nat) : Option Nat :=
  (f.chain top).find? (fun e => match f.stack.look e with | some x => x.call | none => false)

/-- The running path (R238). -/
def Flow.run (f : Flow) : Option Path := f.paths.find? (fun p => p.st == .running)

/-- The paths that are not running. -/
def Flow.others (f : Flow) : List Path := f.paths.filter (fun p => p.st != .running)

/-- Is some path suspended? -/
def Flow.anySuspended (f : Flow) : Bool := f.paths.any (fun p => match p.st with | .suspended _ => true | _ => false)

/-- The flow with an entry pushed (R239): its number and the flow, or none when all 32 entries are in use. -/
def Flow.push (f : Flow) (x : StackEntry) : Option (Nat × Flow) :=
  match f.stack.free f.room with
  | some e => some (e, { f with stack := f.stack.put e x })
  | none => none

/-- A path added as suspended, with the next age (R238). -/
def Flow.suspend (f : Flow) (p : Path) : Flow :=
  { f with paths := f.paths ++ [{ p with st := .suspended (f.ages + 1) }], ages := f.ages + 1 }

/-- Does a path's address equal the ADDR of its top entry, a joinat entry (R241)? -/
def Flow.parksHere (f : Flow) (p : Path) : Bool :=
  match p.top with
  | some e =>
    match f.stack.look e with
    | some x => !x.call && x.addr == p.pc
    | none => false
  | none => false

/-- A path added as running, or as parked where its address is that of its top entry (R241). -/
def Flow.addRunning (f : Flow) (p : Path) : Flow :=
  { f with paths := f.paths ++ [{ p with st := if f.parksHere p then .parked else .running }] }

/-- A path added as suspended, or as parked where its address is that of its top entry (R240, R241). -/
def Flow.addSuspended (f : Flow) (p : Path) : Flow :=
  if f.parksHere p then { f with paths := f.paths ++ [{ p with st := .parked }] } else f.suspend p

/-- Does an entry hold back no unfinished thread (R241)? Every path under it is parked at it. -/
def Flow.poppable (f : Flow) (e : Nat) : Bool :=
  f.paths.all (fun p => !(f.chain p.top).contains e || (p.st == .parked && p.top == some e))

/-- An entry popped: its parked threads form one path at ADDR with the entry's FMT, PART and parent, which runs or parks
at once (R241). A path that ran until then, as where a responder's thread ended by its bound, is suspended (R242; log entry 117). -/
def Flow.pop (f : Flow) (e : Nat) (x : StackEntry) : Flow :=
  let here := f.paths.filter (fun p => p.st == .parked && p.top == some e)
  let mask := here.foldl (fun m p => m ||| p.mask) 0
  let f' := { f with paths := f.paths.filter (fun p => !(p.st == .parked && p.top == some e)), stack := f.stack.del e }
  if mask = 0 then f'
  else
    let p : Path := { mask := mask, pc := x.addr, fmt := x.fmt, part := x.part, top := x.parent, st := .running }
    match f'.parksHere p, f'.run with
    | false, some r => ({ f' with paths := f'.others }.suspend r).addRunning p
    | _, _ => f'.addRunning p

/-- Entries popped while any can be, innermost first (R241). -/
def Flow.popAll : Nat → Flow → Flow
  | 0, f => f
  | n + 1, f =>
    match f.stack.find? (fun e => f.poppable e.1 && (f.stack.all (fun d => d.2.parent != some e.1))) with
    | some (e, x) => Flow.popAll n (f.pop e x)
    | none => f

/-- The age of a suspended path. -/
def Path.age? (p : Path) : Option Nat :=
  match p.st with
  | .suspended a => some a
  | _ => none

/-- The lowest age of a suspended path. -/
def Flow.oldest (f : Flow) : Option Nat := (f.paths.filterMap Path.age?).min?

/-- The oldest suspended path made the running one, where none runs (R242). -/
def Flow.resume (f : Flow) : Flow :=
  if f.run.isSome then f
  else
    match f.oldest with
    | some a => { f with paths := f.paths.map (fun p => if p.st == .suspended a then { p with st := .running } else p) }
    | none => f

/-- The next running path chosen: pops first, then the oldest suspended path (R241, R242). -/
def Flow.settle (f : Flow) : Flow := (Flow.popAll 40 f).resume

/-! ### The selector -/

/-- Target groups of a jix: lowest table index, target and mask, in ascending order of the lowest index (R61). -/
def jixGroups (targets : List (Nat × Nat × Word)) : List (Nat × Word × Word) :=
  let step (acc : List (Nat × Word × Word)) (t : Nat × Nat × Word) : List (Nat × Word × Word) :=
    if acc.any (fun g => g.2.1 == t.2.2) then
      acc.map (fun g => if g.2.1 == t.2.2 then (min g.1 t.2.1, g.2.1, g.2.2 ||| laneBit t.1) else g)
    else acc ++ [(t.2.1, t.2.2, laneBit t.1)]
  sortBy (fun a b => decide (a.1 < b.1)) (targets.foldl step [])

/-- The whole running path moved to an address by a jump: it parks, or, on a backward jump while another path is
suspended, becomes suspended (R241, R243). -/
def Flow.jumpWhole (f : Flow) (p : Path) (target : Word) (inOverlay : Bool) : Flow :=
  let f' := { f with paths := f.others }
  let p' := { p with pc := target }
  if f'.parksHere p' then f'.addRunning p'
  else if inOverlay && decide (idxOf target ≤ idxOf p.pc) && f'.anySuspended then f'.suspend p'
  else f'.addRunning p'

/-- Some threads of the running path sent to an address while the others go on in sequence: where the address is the sequential
one, every thread has one destination and the path does not divide (R240). -/
def Flow.jumpPart (f : Flow) (p : Path) (gm target : Word) : Flow :=
  let rest := { f with paths := f.others }
  let next := nextAddr p.pc
  if target = next then rest.addRunning { p with pc := next }
  else (rest.addRunning { p with mask := p.mask &&& ~~~gm, pc := next }).addSuspended { p with mask := gm, pc := target }

/-- What the selector of an instruction does for the running path. `gm` are its guard-true threads; `targets` gives each
of them its table index and target under jix (R59 to R63, R240). DESIGN CHOICE (log entry 168): where one of several targets of a jix is the
sequential address, the threads that go there by the table form a path of their own beside the sequential one. -/
def Flow.advance (f : Flow) (h : Head) (gm : Word) (targets : List (Nat × Nat × Word)) : Flow :=
  match f.run with
  | none => f
  | some p =>
    let sm := p.mask &&& ~~~gm
    let next := nextAddr p.pc
    let rest := { f with paths := f.others }
    let seqPath : Path := { p with mask := sm, pc := next }
    if gm = 0 then (rest.addRunning { p with pc := next }).settle
    else
      match h.nas with
      | .seq => (rest.addRunning { p with pc := next }).settle
      | .jmp =>
        let t := codeAddr (ovlOf p.pc) (offsetIdx p.pc h.imm).toNat
        if sm = 0 then (f.jumpWhole p t true).settle else (f.jumpPart p gm t).settle
      | .call =>
        let t := codeAddr (ovlOf p.pc) (offsetIdx p.pc h.imm).toNat
        match rest.push { call := true, mask := p.mask, addr := next, fmt := p.fmt, part := p.part, parent := p.top } with
        | none => f
        | some (e, f') =>
          let called : Path := { p with mask := gm, pc := t, top := some e }
          let waiting : List Path := if sm = 0 then [] else [{ seqPath with top := some e, st := .parked }]
          ({ f' with paths := f'.paths ++ waiting }.addRunning called).settle
      | .ret =>
        match f.callEntry p.top with
        | none => f
        | some e =>
          let back : Path := { p with mask := gm, pc := (f.stack.look e).elim next (·.addr), top := some e, st := .parked }
          let f' := { rest with paths := rest.paths ++ [back] }
          (if sm = 0 then f' else f'.addRunning seqPath).settle
      | .exit =>
        let f' := { rest with exited := rest.exited ||| gm }
        (if sm = 0 then f' else f'.addRunning seqPath).settle
      | .jix =>
        match jixGroups targets with
        | [(_, t, _)] =>
          if sm = 0 then (f.jumpWhole p t (decide (ovlOf t = ovlOf p.pc))).settle else (f.jumpPart p gm t).settle
        | groups =>
          let f' := if sm = 0 then rest else rest.addRunning seqPath
          (groups.foldl (fun acc g => acc.addSuspended { p with mask := g.2.2, pc := g.2.1 }) f').settle

/-- The path numbers of a fresh beam: one path of the given threads, running (R236). -/
def Flow.start (mask entry : Word) : Flow :=
  { paths := [{ mask := mask, pc := entry, fmt := 0x6B54_0000, part := 0x20, top := none, st := .running }]
    stack := [], ages := 0, exited := ~~~mask }

/-- The running path changed in place. -/
def Flow.setRun (f : Flow) (g : Path → Path) : Flow :=
  { f with paths := f.paths.map (fun p => if p.st == .running then g p else p) }

/-- Does a flow hold some of these threads? -/
def Flow.holds (f : Flow) (threads : Word) : Bool := f.paths.any (fun p => p.mask &&& threads != 0)

/-- Threads that issued an instruction together set back to it, as the running path: what else runs is suspended, and threads that have joined
theirs since stay where they are. -/
def Flow.setBack (f : Flow) (threads pc : Word) : Flow :=
  let mine := f.paths.filter (fun p => p.mask &&& threads != 0)
  match (mine.find? (fun p => p.st == .running)).orElse (fun _ => mine.head?) with
  | none => f
  | some p =>
    let back : Path := { p with mask := mine.foldl (fun m q => m ||| (q.mask &&& threads)) 0, pc := pc, st := .running }
    let rest : Flow := { f with paths := (f.paths.map (fun q => { q with mask := q.mask &&& ~~~threads })).filter (fun q => q.mask != 0) }
    let rest := match rest.run with | some r => { rest with paths := rest.others }.suspend r | none => rest
    { rest with paths := rest.paths ++ [back] }

/-- Has every thread exited (R63)? -/
def Flow.isOver (f : Flow) : Bool := f.paths.isEmpty

end Sys2Proof.Machine
end

