-- ==== Sys2Proof/Machine/Ops.lean ====
section
/-!
DEFINITION. The named operations over the state: access to cores, beams, teams and virtual devices; registers and their
full-or-empty state; the error queue; results in flight; the ends of beams, teams and launches; kills; taking a trap and
returning from one.
-/
namespace Sys2Proof.Machine

/-- The outcome of a step of the package. -/
abbrev Out := Host.Outcome State Fault Refusal

/-! ### Access -/

/-- A core (R16). -/
def State.core (s : State) (n : Nat) : Core := s.cores.getD n {}

/-- The state with a core replaced. -/
def State.setCore (s : State) (n : Nat) (c : Core) : State := { s with cores := s.cores.put n c }

/-- The state with a core changed. -/
def State.updCore (s : State) (n : Nat) (f : Core → Core) : State := s.setCore n (f (s.core n))

/-- The beam in a slot of a core. -/
def State.beam? (s : State) (core slot : Nat) : Option Beam := (s.core core).beams.look slot

/-- The state with a beam put in a slot. -/
def State.setBeam (s : State) (core slot : Nat) (b : Beam) : State :=
  s.updCore core (fun c => { c with beams := c.beams.put slot b })

/-- The state with the beam of a slot changed. -/
def State.updBeam (s : State) (core slot : Nat) (f : Beam → Beam) : State :=
  s.updCore core (fun c => { c with beams := c.beams.upd slot f })

/-- The beam that a reference names, while its generation tag still matches (R237). -/
def State.ref? (s : State) (r : BeamRef) : Option Beam :=
  match s.beam? r.core r.slot with
  | some b => if b.gen == r.gen then some b else none
  | none => none

/-- A team of a core: the ordinary team, or a responder team (R309). -/
def Core.teamIn (c : Core) (slot : Option Nat) : Option Team :=
  match slot with
  | none => c.team
  | some r => c.resps.look r

/-- A core with a team replaced. -/
def Core.putTeam (c : Core) (slot : Option Nat) (t : Team) : Core :=
  match slot with
  | none => { c with team := some t }
  | some r => { c with resps := c.resps.put r t }

/-- The team of a beam. -/
def State.teamOf (s : State) (core : Nat) (b : Beam) : Option Team := (s.core core).teamIn b.resp

/-- The state with a team changed. -/
def State.updTeam (s : State) (core : Nat) (slot : Option Nat) (f : Team → Team) : State :=
  match (s.core core).teamIn slot with
  | some t => s.updCore core (fun c => c.putTeam slot (f t))
  | none => s

/-- A virtual device changed. -/
def State.updVd (s : State) (v : Nat) (f : VDev → VDev) : State := { s with vds := s.vds.upd v f }

/-- A launch. -/
def State.launch? (s : State) (v l : Nat) : Option Launch :=
  match s.vds.look v with
  | some d => d.launches.look l
  | none => none

/-- A launch changed. -/
def State.updLaunch (s : State) (v l : Nat) (f : Launch → Launch) : State :=
  s.updVd v (fun d => { d with launches := d.launches.upd l f })

/-- A queue changed. -/
def State.updQueue (s : State) (v q : Nat) (f : Queue → Queue) : State :=
  s.updVd v (fun d => { d with queues := d.queues.upd q f })

/-- The number of a free value, and the state at the next one. -/
def State.take (s : State) : Nat × State := (s.fresh, { s with fresh := s.fresh + 1 })

/-- A name for something in flight, and the state at the next one. -/
def State.name (s : State) : Nat × State := (s.nextId, { s with nextId := s.nextId + 1 })

/-- The command-processor counter brought up to a moment (R24): by a free number of cycles, since the model counts none. -/
def State.cpTick (s : State) : State :=
  let (n, s) := s.take
  { s with cpCyc := s.cpCyc + Config.cycles n }

/-- The governor counter of a die brought up to a moment (R24). -/
def State.govTick (s : State) (die : Nat) : State :=
  let (n, s) := s.take
  { s with gov := s.gov.put die { s.gov.getD die {} with cyc := (s.gov.getD die {}).cyc + Config.cycles n } }

/-! ### The creation descriptor (R328) -/

/-- Bits [lo + n - 1 : lo] of a number. -/
def bitsOf (x lo n : Nat) : Nat := x / 2 ^ lo % 2 ^ n

/-- A field of the creation descriptor. -/
def VDev.field (d : VDev) (lo n : Nat) : Nat := bitsOf d.descr.toNat lo n

/-- The clusters owned. -/
def VDev.clusters (d : VDev) : List Nat := (List.range 144).filter (fun k => d.field (856 + k) 1 == 1)

/-- The core numbers owned: cluster k of the package holds cores 16k to 16k + 15 (R18). -/
def VDev.cores (d : VDev) : List Nat := d.clusters.flatMap (fun k => (List.range 16).map (fun i => 16 * k + i))

/-- The segments owned. -/
def VDev.segments (d : VDev) : List Nat := (List.range 128).filter (fun i => d.field (728 + i) 1 == 1)

/-- Is landing-pad checking strict? -/
def VDev.strict (d : VDev) : Bool := d.field 583 1 == 1

/-- The wake class. -/
def VDev.wakeClass (d : VDev) : Nat := d.field 576 2

/-- Is a virtual device one that the command processor works for: awake, or waking with its segments and directories back (R335)? -/
def VDev.up (d : VDev) : Bool := d.power == .awake || (d.power == .waking && decide (d.stage < 3))

/-- The pooled ranges: base and length in bytes. -/
def VDev.pools (d : VDev) : List (Nat × Nat) :=
  ((List.range 4).map (fun i => (d.field (192 + 64 * i + 15) 18 * 2 ^ 30, d.field (192 + 64 * i + 33) 16 * 2 ^ 30))).filter
    (fun r => r.2 != 0)

/-- The compute die of a core (R18). -/
def dieOf (core : Nat) : Nat := core / 288

/-- The compute dies that hold a cluster of the virtual device. -/
def VDev.dies (d : VDev) : List Nat := (List.range 8).filter (fun i => d.clusters.any (fun k => k / 18 == i))

/-! ### The error queue (R379) -/

/-- An entry of the error queue. -/
def errEntry (type sub lane count launch core pc addr : Nat) : BitVec 256 :=
  BitVec.ofNat 256 (type + 2 ^ 8 * (sub % 2 ^ 8) + 2 ^ 16 * lane + 2 ^ 64 * (count % 2 ^ 32) + 2 ^ 96 * (launch % 2 ^ 32)
    + 2 ^ 128 * core + 2 ^ 160 * pc + 2 ^ 200 * (addr % 2 ^ 56))

/-- CORE and LAUNCH where none is concerned. -/
def nobody : Nat := 0xFFFF_FFFF

/-- The header of a management response (R358). -/
def respHeader (op status vd plen reqid result : Nat) : BitVec 512 :=
  BitVec.ofNat 512 (op + 2 ^ 8 * status + 2 ^ 16 * vd + 2 ^ 32 * plen + 2 ^ 64 * reqid + 2 ^ 128 * result)

/-- An entry written to the error queue of a virtual device, and sent to the owner (R379). -/
def State.pushErr (s : State) (v : Nat) (e : BitVec 256) : State :=
  let s := s.updVd v (fun d =>
    if d.errq.length < 256 then { d with errq := d.errq ++ [e] } else { d with overflow := d.overflow + 1 })
  { s with mgmt := { s.mgmt with
      sent := s.mgmt.sent ++ [{ assoc := none, header := respHeader 0xFF 0 v 32 0 0, body := leBytes 32 e.toNat }] } }

/-- The low 32 bits of a launch's number, or none. -/
def Launch.low (l : Launch) : Nat := (l.number.getD nobody) % 2 ^ 32

/-- The number of the launch of a team, for an error-queue entry. -/
def State.launchLow (s : State) (v l : Nat) : Nat := ((s.launch? v l).map Launch.low).getD nobody

/-- An instruction of a launch detects a poison event or reads poison (R387). -/
def State.countPoison (s : State) (v l : Nat) : State :=
  s.updLaunch v l (fun x => { x with poison := min (x.poison + 1) 0xFFFF_FFFF })

/-- A status or arrival dropped by generation tag (R189). -/
def State.countDrop (s : State) (v : Nat) : State := s.updVd v (fun d => { d with dropped := d.dropped + 1 })

/-! ### Registers -/

/-- The key of a c register: c48 to c63 name the trap registers in handler mode (R369). -/
def Beam.ckey (b : Beam) (n : Nat) : Nat := if b.handler.isSome && decide (48 ≤ n) then n + 64 else n

/-- A c register; `c0` reads zero (R30). -/
def Beam.creg (b : Beam) (n : Nat) : Cell32 := if n = 0 then {} else b.c.getD (b.ckey n) {}

/-- A v register of a lane: one not yet written holds its launch marker, or 0 (R96). -/
def Beam.vreg (b : Beam) (lane n : Nat) : Cell32 :=
  b.v.getD (lane + 32 * n) { val := if b.planted then BitVec.ofNat 32 (0x7FA0_0000 + n) else 0 }

/-- A matrix register of a lane (R134). -/
def Beam.mreg (b : Beam) (lane n : Nat) : MReg := b.m.getD (lane + 32 * n) {}

/-- A per-thread predicate; `p7` reads true (R29). -/
def Beam.preg (b : Beam) (lane n : Nat) : PBit := if n = 7 then { val := true } else b.p.getD (lane + 32 * n) {}

/-- A uniform predicate; `q7` reads true (R29). -/
def Beam.qreg (b : Beam) (n : Nat) : PBit := if n = 7 then { val := true } else b.q.getD n {}

/-- Values put at keys. -/
def putAll {α : Type} (m : FMap α) (es : List (Nat × α)) : FMap α := es.foldl (fun acc e => acc.put e.1 e.2) m

/-- Registers written: `c0` discards (R30), and a write to the register of the reuse latch discards the latch (R65). -/
def Beam.write (b : Beam) (o : RegOut) : Beam :=
  { b with
    v := putAll b.v o.v
    c := putAll b.c (o.c.filter (fun e => e.1 != 0))
    m := putAll b.m o.m
    p := putAll b.p o.p
    q := putAll b.q o.q
    latch := match b.latch with
      | some (.v n) => if o.v.any (fun e => e.1 / 32 == n.toNat) then none else b.latch
      | some (.c n) => if o.c.any (fun e => e.1 == b.ckey n.toNat) then none else b.latch
      | some (.m n) => if o.m.any (fun e => e.1 / 32 == n.toNat) then none else b.latch
      | l => l }

/-- The registers that an operand names at a position of its entry (R64); `c0` is never empty (R30). -/
def Beam.names (b : Beam) (s : Pos) (o : Opnd) : Names :=
  match o with
  | .v n => { v := (List.range s.span).map (fun i => n.toNat + i) }
  | .c n => { c := (((List.range s.span).map (fun i => n.toNat + i)).filter (· != 0)).map b.ckey }
  | .m n => { m := [n.toNat] }
  | _ => {}

/-- Is a register of the list empty (R64)? -/
def Beam.anyEmpty (b : Beam) (ns : Names) : Bool :=
  ns.v.any b.emptyV.contains || ns.c.any b.emptyC.contains || ns.m.any b.emptyM.contains

/-- Registers emptied (R64). -/
def Beam.empty (b : Beam) (ns : Names) : Beam :=
  { b with emptyV := b.emptyV ++ ns.v, emptyC := b.emptyC ++ ns.c, emptyM := b.emptyM ++ ns.m }

/-- Registers filled (R64). -/
def Beam.full (b : Beam) (ns : Names) : Beam :=
  { b with
    emptyV := b.emptyV.filter (fun n => !ns.v.contains n)
    emptyC := b.emptyC.filter (fun n => !ns.c.contains n)
    emptyM := b.emptyM.filter (fun n => !ns.m.contains n) }

/-- The values of a beam's registers at keys of v or c from a register up, for a result of several words. -/
def wordsOut (uni : Bool) (b : Beam) (o : Opnd) (lane : Nat) (ws : List Cell32) : RegOut :=
  match o with
  | .v n => { v := ws.mapIdx (fun i w => (lane + 32 * (n.toNat + i), w)) }
  | .c n => if uni then { c := ws.mapIdx (fun i w => (if n.toNat + i = 0 then 0 else b.ckey (n.toNat + i), w)) } else {}
  | _ => {}

/-- Two sets of register values together. -/
def RegOut.join (a b : RegOut) : RegOut :=
  { v := a.v ++ b.v, c := a.c ++ b.c, m := a.m ++ b.m, p := a.p ++ b.p, q := a.q ++ b.q }

/-- Register values of several lanes together. -/
def RegOut.all (l : List RegOut) : RegOut := l.foldl RegOut.join {}

/-! ### Results in flight -/

/-- Has an access been performed, on this package and on every other device? -/
def GOp.settled (g : GOp) : Bool := g.done && g.acked

/-- Is an access, copy or overlay load of a name still to be performed? -/
def State.pending (s : State) (id : Nat) : Bool :=
  s.gops.any (fun g => g.id == id && !g.settled) || s.copies.any (·.id == id) || s.ovls.any (·.id == id)

/-- A result put in flight. -/
def State.addFill (s : State) (f : Fill) : State := { s with fills := s.fills ++ [f] }

/-- A result delivered: its registers are written and filled where its beam is still the one that issued it; otherwise it is
dropped with the registers (R64, R189, R211). -/
def State.deliver (s : State) (r : BeamRef) (ns : Names) (o : RegOut) : State :=
  match s.ref? r with
  | some _ => s.updBeam r.core r.slot (fun b => (b.write o).full ns)
  | none => s

/-- Something in flight done with: no handler waits for it any longer. -/
def State.undrain (s : State) (r : BeamRef) (id : Nat) : State :=
  s.updBeam r.core r.slot (fun b => { b with drain := b.drain.filter (· != id) })

/-! ### Overlays on a core (R259) -/

/-- The slot of a core that holds an overlay. -/
def Core.slotOf (c : Core) (ovl : Nat) : Option Nat :=
  (List.range 4).find? (fun i => match c.slots.look i with | some x => x.overlay == some ovl | none => false)

/-- The slot of a core that loads an overlay. -/
def Core.loadingIn (c : Core) (ovl : Nat) : Option Nat :=
  (List.range 4).find? (fun i => match c.slots.look i with | some x => x.loading == some ovl | none => false)

/-- Is a slot loading? -/
def Core.slotLoading (c : Core) (slot : Nat) : Bool :=
  match c.slots.look slot with
  | some x => x.loading.isSome
  | none => false

/-- A load of an overlay into a slot started: the slot is emptied and marked, and the image is that of the overlay as it is now (R260). -/
def State.startLoad (s : State) (core slot vd ovl : Nat) (beam : Option BeamRef) (names : Names)
    (fetch : Bool) (team : Option (BitVec 16) := none) (entry : Option Nat := none) : State :=
  let (id, s) := s.name
  let asker : Option Beam := if fetch then none else beam.bind (fun r => s.beam? r.core r.slot)
  let s := s.updCore core (fun c => { c with slots := c.slots.put slot { loading := some ovl } })
  { s with ovls := s.ovls ++ [{
      id := id, core := core, slot := slot, vd := vd, ovl := ovl, beam := beam, names := names, fetch := fetch, team := team
      launch := asker.bind (fun b => (s.teamOf core b).map (·.launch)), img := (s.vds.look vd).bind (fun d => d.overlays.look ovl)
      entry := entry, counted := asker.any (·.found) }] }

/-- The word at an index of an overlay: all ones beyond its length (R52). -/
def Core.word (c : Core) (slot idx : Nat) : InsnWord :=
  match c.slots.look slot with
  | some x => (x.words[idx]?).getD (BitVec.allOnes 96)
  | none => BitVec.allOnes 96

/-! ### Barriers (R247) -/

/-- Have all live beams of a team arrived at a barrier? -/
def Team.allArrived (t : Team) (bars : FMap Barrier) (b : Nat) : Bool :=
  let x := bars.getD b {}
  (List.range t.beams).all (fun i => t.ended.contains i || x.arrived.contains i)

/-- A barrier at its next generation, with no arrivals. -/
def nextGen (bars : FMap Barrier) (b : Nat) : FMap Barrier := bars.put b { gen := (bars.getD b {}).gen + 1, arrived := [] }

/-- A beam asleep at a barrier returned to the ready set; one that sleeps there under a handler will resume awake. The
selector of the instruction it slept in takes effect when the beam next comes to issue (R60, R247, R276). -/
def Beam.wakeFrom (w : Sleep) (b : Beam) : Beam :=
  { b with
    sleep := if b.sleep == w then .ready else b.sleep
    handler := b.handler.map (fun h => if h.sleep == w then { h with sleep := .ready } else h) }

/-- The beams of a team changed. -/
def State.updBeams (s : State) (core : Nat) (slot : Option Nat) (f : Beam → Beam) : State :=
  s.updCore core (fun c => { c with beams := c.beams.map (fun e => if e.2.resp == slot then (e.1, f e.2) else e) })

/-- Does a row wait for a translation? -/
def Row.waits (r : Row) : Bool := match r.st with | .walking _ _ _ => true | _ => false

/-- Has a copy sources to read still (R198)? -/
def Copy.reading (c : Copy) : Bool := c.rows.any Row.waits

/-- Is a load one of an `ovl` of a launch whose beam has ended? -/
def State.orphanLoad (s : State) (l : OvlLoad) (vd launch : Nat) : Bool :=
  l.vd == vd && l.launch == some launch && l.beam.any (fun r => (s.ref? r).isNone)

/-- Is a write of a beam of a launch that has ended on a core still to be performed, or a copy or an `ovl` of it to read its sources? Its
end is its arrival, which waits for what comes before it (R195, R198, R202, R247). -/
def State.leftovers (s : State) (core vd launch : Nat) : Bool :=
  s.gops.any (fun g => g.beam.core == core && g.vd == vd && g.launch == launch && g.kind != .load && !g.settled &&
    (s.ref? g.beam).isNone) ||
  s.copies.any (fun c => c.beam.core == core && c.vd == vd && c.launch == launch && c.reading && (s.ref? c.beam).isNone) ||
  s.ovls.any (fun l => l.core == core && s.orphanLoad l vd launch)

/-- The core relies on no bytes as they were before: what its relaxed loads return from now on is in memory (R199, R200, R202). -/
def State.seeNow (s : State) (core : Nat) : State := s.updCore core (fun c => { c with older := [] })

/-- A team barrier completed where all live beams have arrived (R247). -/
def State.settleBar (s : State) (core : Nat) (slot : Option Nat) (b : Nat) : State :=
  match (s.core core).teamIn slot with
  | some t =>
    if !(t.bars.getD b {}).arrived.isEmpty && t.allArrived t.bars b && (t.ended.isEmpty || !s.leftovers core t.vd t.launch) then
      ((s.updTeam core slot (fun t => { t with bars := nextGen t.bars b })).updBeams core slot (Beam.wakeFrom (.bar b))).seeNow core
    else s
  | none => s

/-- The resident teams of one cluster of a launch: their cores. For a launch that is not a cluster launch, the team alone
(R235, R275). -/
def State.clusterCores (s : State) (core : Nat) (slot : Option Nat) : List Nat :=
  match (s.core core).teamIn slot with
  | some t =>
    if slot.isNone && t.position.isSome then
      (s.cores.filter (fun e => match e.2.team with
        | some u => u.vd == t.vd && u.launch == t.launch && u.cluster == t.cluster
        | none => false)).map (·.1)
    else [core]
  | none => []

/-- The cores of the hardware cluster of a core (R18). -/
def clusterOf (core : Nat) : List Nat := (List.range 16).map (fun i => core / 16 * 16 + i)

/-- Is a write of an ended beam of the cluster of a team still to be performed? -/
def State.clusterLeftovers (s : State) (core : Nat) (slot : Option Nat) : Bool :=
  match (s.core core).teamIn slot with
  | some t => (if slot.isNone && t.position.isSome then clusterOf core else [core]).any (fun n => s.leftovers n t.vd t.launch)
  | none => false

/-- A cluster barrier completed where every team of the cluster that has not ended has arrived (R247). -/
def State.settleCbar (s : State) (core : Nat) (slot : Option Nat) (b : Nat) : State :=
  let cs := s.clusterCores core slot
  let arrived (n : Nat) : Bool :=
    match (s.core n).teamIn slot with
    | some t => t.allArrived t.cbars b
    | none => true
  let some1 : Bool := cs.any (fun n => match (s.core n).teamIn slot with
    | some t => !(t.cbars.getD b {}).arrived.isEmpty
    | none => false)
  if some1 && cs.all arrived && !s.clusterLeftovers core slot then
    cs.foldl (fun s n =>
      ((s.updTeam n slot (fun t => { t with cbars := nextGen t.cbars b })).updBeams n slot (Beam.wakeFrom (.cbar b))).seeNow n) s
  else s

/-- Every barrier of a team looked at again (R247). -/
def State.settleBars (s : State) (core : Nat) (slot : Option Nat) : State :=
  let s := (List.range 16).foldl (fun s b => s.settleBar core slot b) s
  (List.range 4).foldl (fun s b => s.settleCbar core slot b) s

/-- The barriers that an ended beam of a core may have held back looked at again, once a write of its has been performed. -/
def State.resettle (s : State) (core : Nat) : State :=
  let s := (clusterOf core).foldl (fun s n => s.settleBars n none) s
  (s.core core).resps.foldl (fun s e => s.settleBars core (some e.1)) s

/-! ### Launches (R297, R301, R408) -/

/-- Has a team of a launch triggered or ended: each of its beams has (R277)? What a discarded team has counted stands, and the beams
of a saved team that have ended stay ended (R295, R296). -/
def State.teamTriggered (s : State) (l : Launch) (i : Nat) : Bool :=
  let all (ended : List Nat) : Bool :=
    (List.range (bitsOf l.packet.toNat 32 5 + 1)).all (fun b => ended.contains b || l.trig.contains (32 * i + b))
  match l.teams.look i with
  | some .ended | some .killed => true
  | some (.resident core) | some (.saving core) =>
    match (s.core core).team with
    | some t => all t.ended
    | none => false
  | some (.saved x) => all x.team.ended
  | some (.discarding _) | none => all []

/-- Is a team state one in which nothing of the team remains (R297)? -/
def TeamSt.settled : TeamSt → Bool
  | .ended | .killed => true
  | _ => false

/-- Does a responder of a census of the launch still wait, or hold a beam (R251)? -/
def State.respondersOf (s : State) (v l : Nat) : Bool :=
  s.cores.any (fun e => e.2.resps.any (fun r => r.2.vd == v && r.2.launch == l))

/-- Is a census of the launch open or waiting (R251)? -/
def VDev.censusOf (d : VDev) (l : Nat) : Bool :=
  d.slots.any (fun e => e.2.launch == l) || d.waiting.any (fun c => c.launch == l)

/-- May the node of a launch started from a bin still start teams (R291)? -/
def VDev.binBusy (d : VDev) (l : Launch) : Bool :=
  match l.node with
  | some (g, n) =>
    match d.graphs.look g with
    | some gr =>
      match gr.nodes.look n with
      | some nd => l.bin && l.code.isNone &&
          (!nd.bin.isEmpty || !nd.excess.isEmpty ||
            gr.nodes.any (fun e => (List.range 16).any (fun i =>
              let x := bitsOf e.2.succ.toNat (16 * i) 16
              decide (2 ^ 15 ≤ x) && x % 256 == n && !(match e.2.st with | .done _ => true | _ => false))))
      | none => false
    | none => false
  | none => false

/-- The trigger event of a launch, once every team has triggered or ended (R277); a launch started from a bin has no more teams to come
then (R291). -/
def State.settleTrigger (s : State) (v l : Nat) : State :=
  match s.vds.look v with
  | some d =>
    match d.launches.look l with
    | some x =>
      if x.st == .running && !x.trigged && !d.binBusy x && (List.range x.count).all (s.teamTriggered x) then
        s.updLaunch v l (fun x => { x with trigged := true })
      else s
    | none => s
  | none => s

/-- A running launch whose teams have all ended, with no census and no responder left, drains (R251, R297). -/
def State.settleLaunch (s : State) (v l : Nat) : State :=
  match s.vds.look v with
  | some d =>
    match d.launches.look l with
    | some x =>
      if x.st == .running && decide (x.count ≤ x.next) && x.again.isEmpty && x.teams.all (fun e => e.2.settled) &&
          !d.censusOf l && !s.respondersOf v l && !d.binBusy x then
        s.updLaunch v l (fun x => { x with st := .draining })
      else s
    | none => s
  | none => s

/-! ### Ends of beams and teams (R251, R252) -/

/-- Does a copy of a team still read or write its allocation (R252)? -/
def State.copiesOf (s : State) (core : Nat) (slot : Option Nat) (gen : BitVec 16) : Bool :=
  s.copies.any (fun c => c.beam.core == core && c.resp == slot && c.teamGen == gen)

/-- A team taken off its slot: its allocation is kept while its copies are in flight (R252). -/
def State.dropTeam (s : State) (core : Nat) (slot : Option Nat) : State :=
  match (s.core core).teamIn slot with
  | some t =>
    let keep : Bool := s.copiesOf core slot t.gen
    s.updCore core (fun c =>
      { c with
        team := if slot.isNone then none else c.team
        resps := match slot with | none => c.resps | some r => c.resps.del r
        kept := if keep then c.kept ++ [(slot, t)] else c.kept })
  | none => s

/-- Allocations released once their copies are done with (R226, R252). -/
def State.releaseKept (s : State) (core : Nat) : State :=
  s.updCore core (fun c => { c with kept := c.kept.filter (fun k => s.copiesOf core k.1 k.2.gen) })

/-- The team's queue is charged for the die cycles it used (R292): a free number of cycles, since the model counts none. -/
def State.charge (s : State) (v q times : Nat) : State :=
  let (n, s) := s.take
  s.updQueue v q (fun x => { x with deficit := x.deficit - (times : Int) * (Config.cycles n).toNat })

/-- Does a team of the same cluster still stand (R292)? -/
def Launch.clusterStands (l : Launch) (t : Team) : Bool :=
  let n := bitsOf l.packet.toNat 37 4 + 1
  (List.range n).any (fun i => match l.teams.look (t.cluster * n + i) with | some x => !x.settled | none => false)

/-- The team's state in its launch set, and what hangs on it: the charge, the record array, trigger and completion. -/
def State.retireTeam (s : State) (t : Team) (st : TeamSt) : State :=
  match s.launch? t.vd t.launch with
  | some l =>
    let s := s.updLaunch t.vd t.launch (fun x =>
      { x with teams := x.teams.put t.index st, placed := x.placed.filter (· != t.index)
               killed := if st == .killed then x.killed + 1 else x.killed })
    let s := match t.position with
      | some _ =>
        match s.launch? t.vd t.launch with
        | some l' => if l'.clusterStands t then s else s.charge t.vd l.queue 16
        | none => s
      | none => s.charge t.vd l.queue 1
    let s := match t.array with
      | some (g, n, a) => s.updVd t.vd (fun d => { d with graphs := d.graphs.upd g (fun gr =>
          { gr with nodes := gr.nodes.upd n (fun nd => { nd with arrays := nd.arrays.filter (· != a) }) }) })
      | none => s
    (s.settleTrigger t.vd t.launch).settleLaunch t.vd t.launch
  | none => s

/-- The responders on some lanes of a beam that have not answered become errors (R310, R317). -/
def State.failResponders (s : State) (t : Team) (lanes : List Nat) : State :=
  match t.census with
  | some slot =>
    let ids := lanes.filterMap (fun i => t.lanes[i]?)
    s.updVd t.vd (fun d => { d with slots := d.slots.upd slot (fun c =>
      { c with resps := c.resps.map (fun r =>
          if ids.contains r.id && !r.closed then { r with msg := r.msg.orElse (fun _ => some none), closed := true } else r) }) })
  | none => s

/-- A beam ends: its slot is free, it counts as arrived at every barrier, and its team ends with its last beam (R247,
R251). -/
def State.endBeam (s : State) (core slot : Nat) : State :=
  match s.beam? core slot with
  | none => s
  | some b =>
    let s := s.updCore core (fun c => { c with beams := c.beams.del slot })
    let s := s.updTeam core b.resp (fun t => { t with ended := t.ended ++ [b.idx] })
    match (s.core core).teamIn b.resp with
    | none => s
    | some t =>
      if (List.range t.beams).all t.ended.contains then
        let cs := (s.clusterCores core b.resp).filter (· != core)
        let s := s.dropTeam core b.resp
        match b.resp with
        | none =>
          let s := s.retireTeam t .ended
          cs.foldl (fun s n => s.settleBars n none) s
        | some _ => (s.failResponders t (List.range 32)).settleLaunch t.vd t.launch
      else
        (s.settleBars core b.resp).settleTrigger t.vd t.launch

/-- The beams of a team end at once, and their results in flight are dropped, but for statuses, which are counted as they arrive
(R189, R381), and a sampled product in flight writes no ring entry (DESIGN CHOICE, log entry 153). Writes already issued are still
performed, except at a discard, where they never are (R208, R295); an arrival that stands behind one of those is never applied. -/
def State.clearBeams (s : State) (core : Nat) (slot : Option Nat) (discard : Bool) : State :=
  let gone (r : BeamRef) : Bool := r.core == core && (match s.ref? r with | some b => b.resp == slot | none => false)
  let kept (g : GOp) : Option GOp :=
    if !gone g.beam then some g
    else if g.settled || g.kind == GKind.load || (discard && !g.done) then none
    else some { g with dest := none }
  let lost := (s.gops.filter (fun g => discard && gone g.beam && g.kind != GKind.load && !g.done)).map (·.id)
  { s with gops := s.gops.filterMap kept, fills := s.fills.filter (fun f => !gone f.beam || f.drop.isSome)
           arrivals := s.arrivals.filter (fun a => !a.after.any lost.contains) }.updCore
    core (fun c => { c with beams := c.beams.filter (fun e => e.2.resp != slot) })

/-- One placed team killed (R381). -/
def State.killTeam (s : State) (v l i : Nat) (st : TeamSt) : State :=
  let ordinary (core : Nat) : State :=
    match (s.core core).team with
    | some t =>
      if t.vd == v && t.launch == l && t.index == i then
        let cs := (s.clusterCores core none).filter (· != core)
        let s := s.clearBeams core none false
        let s := (s.dropTeam core none).retireTeam t .killed
        cs.foldl (fun s n => s.settleBars n none) s
      else s
    | none => s
  match st with
  | .resident core | .saving core => ordinary core
  | .discarding _ | .saved _ =>
    let s := s.updLaunch v l (fun x => { x with teams := x.teams.put i .killed, placed := x.placed.filter (· != i), killed := x.killed + 1 })
    (s.settleTrigger v l).settleLaunch v l
  | .ended | .killed => s

/-- The teams of a launch that are placed and have not ended. -/
def Launch.live (l : Launch) : List (Nat × TeamSt) := l.teams.filter (fun e => !e.2.settled)

/-- The first event recorded for a launch fixes its status (R408). -/
def Launch.fix (l : Launch) (code : Nat) : Launch := { l with code := l.code.orElse (fun _ => some code) }

/-- Every team of a launch killed, and the pending ones never placed (R297, R381). -/
def State.killTeams (s : State) (v l code : Nat) : State :=
  match s.launch? v l with
  | none => s
  | some x =>
    let s := s.updLaunch v l (fun x => { x.fix code with next := x.count, again := [] })
    (x.live.foldl (fun s e => s.killTeam v l e.1 e.2) s).settleLaunch v l

/-- A launch killed by an event, with the one entry of type 0x0A (R381). -/
def State.killLaunch (s : State) (v l code core pc : Nat) : State :=
  match s.launch? v l with
  | none => s
  | some x => (s.killTeams v l code).pushErr v (errEntry 0x0A code 0 x.live.length x.low core pc 0)

/-- What a responder beam that ends in a trap makes of the status of the asker's launch: nothing (R370), or TRAP (R405, R407). The
spec says both, so which it is stays open (log entry 113). -/
def State.noteResponderTrap (s : State) (v l : Nat) : State :=
  let (n, s) := s.take
  if Config.responderTrapFixes n then s.updLaunch v l (fun x => x.fix 0x02) else s

/-- A beam ends in a trap (R370). -/
def State.endInTrap (s : State) (core slot sub : Nat) : State :=
  match s.beam? core slot with
  | none => s
  | some b =>
    match s.teamOf core b with
    | none => s
    | some t =>
      let n := s.launchLow t.vd t.launch
      let s := s.pushErr t.vd (errEntry 0x06 sub (bitsOf b.tcause.toNat 24 5) 1 n core b.tpc.toNat 0)
      match b.resp with
      | some _ => (s.noteResponderTrap t.vd t.launch).endBeam core slot
      | none =>
        match s.launch? t.vd t.launch with
        | none => s.endBeam core slot
        | some x =>
          let others := x.live.length - 1
          let s := s.killTeams t.vd t.launch 0x02
          if others = 0 then s else s.pushErr t.vd (errEntry 0x0A 0x02 0 others x.low nobody 0 0)

/-! ### Traps (R366 to R370) -/

/-- What a trap reports. A position is 0 for A, 1 for B, 2 for C, 3 for D or none, and 0 where R366 names none. -/
structure Trap where
  cause  : Nat
  reason : Nat := 0
  lane   : Nat := 0
  pos    : Nat := 0
  addr   : DWord := 0
  done   : Bool := false
  deriving DecidableEq, Repr

/-- The `%tcause` of a trap (R367). -/
def Trap.word (t : Trap) : Word :=
  BitVec.ofNat 32 (t.cause + 2 ^ 8 * t.reason + 2 ^ 22 * t.pos + 2 ^ 24 * t.lane + 2 ^ 29 * t.done.toNat)

/-- What a handler waits for: results and accesses of the beam in flight (R111, R147, R211). -/
def State.outstanding (s : State) (r : BeamRef) : List Nat :=
  (s.fills.filter (fun f => f.beam == r && !s.moves.any (fun m => m.fill == f.id))).map (·.id) ++
    (s.gops.filter (fun g => g.beam == r && !g.settled)).map (·.id)

/-- The size of a beam's save block (R377). -/
def Decl.blockSize (d : Decl) : Nat := (4096 + 128 * d.vregs + 128 * d.mcap * d.mcount + 4095) / 4096 * 4096

/-- The offset of a beam's block in its team's save area (R377). -/
def Decl.blockAt (d : Decl) (b : Nat) : Nat := (d.spad + 4095) / 4096 * 4096 + b * d.blockSize

/-- The trap registers c48 to c63 at entry (R369). -/
def trapRegs (d : Decl) (cause idx area : Nat) : List (Nat × Cell32) :=
  let word (n : Nat) : Word :=
    let block := area + d.blockAt idx
    let save : Bool := cause == 0x11 || cause == 0x12
    if n = 58 then BitVec.ofNat 32 d.spad
    else if save && n == 60 then BitVec.ofNat 32 block
    else if save && n == 61 then BitVec.ofNat 32 (block / 2 ^ 32)
    else if save && n == 62 then BitVec.ofNat 32 area
    else if save && n == 63 then BitVec.ofNat 32 (area / 2 ^ 32)
    else 0
  (List.range 16).map (fun i => (112 + i, { val := word (48 + i) }))

/-- A beam holds for no page walk any longer (R193). -/
def State.unhold (s : State) (r : BeamRef) : State :=
  { s with walks := s.walks.map (fun w => { w with beams := w.beams.filter (fun b => b.1 != r) }) }

/-- A beam enters its handler (R369): its paths and stack are frozen, and one path of the trapping path's threads runs at
index 0 of overlay 255. What walks have found for the instruction that it held at is not the handler's (R193). -/
def Beam.enterHandler (b : Beam) (cause area : Nat) (nas : Option Sel) (drain : List Nat) : Beam :=
  { b with
    handler := some { cause := BitVec.ofNat 8 cause, frozen := b.flow, nas := nas, sleep := b.sleep, pend := b.pend }
    flow := { Flow.start ((b.flow.run.map (·.mask)).getD 0) (codeAddr 255 0) with room := b.flow.room - b.flow.stack.length }
    c := putAll b.c (trapRegs b.decl cause b.idx area)
    emptyC := b.emptyC.filter (fun n => decide (n < 112))
    sleep := .ready
    pend := none
    latch := none
    drain := drain
    missed := []
    fetch := true }

/-- A beam takes a trap with `%tpc` at an address (R366 to R370). In handler mode, or with no overlay 255 loaded, the beam
ends instead. -/
def State.takeTrap (s : State) (core slot : Nat) (t : Trap) (pc : Word) (nas : Option Sel) : State :=
  match s.beam? core slot with
  | none => s
  | some b =>
    let b := { b with tcause := t.word, tpc := pc, taddr := t.addr, latch := none }
    let s := s.setBeam core slot b
    match s.teamOf core b with
    | none => s
    | some tm =>
      let loaded : Bool := match s.vds.look tm.vd with | some d => (d.overlays.look 255).isSome | none => false
      if b.handler.isSome || !loaded then s.endInTrap core slot 0
      else
        let r : BeamRef := { core := core, slot := slot, gen := b.gen }
        (s.setBeam core slot (b.enterHandler t.cause (tm.area.getD 0) nas (s.outstanding r))).unhold r

/-- The address of a beam's running path. -/
def Flow.pc (f : Flow) : Word := (f.run.map (·.pc)).getD 0

/-- The selector of an instruction takes effect: the beam's path moves on, and the beam ends with its last thread; a thread
that exits in handler mode ends the beam in a trap, and a responder that exits without an answer becomes an error (R59, R60,
R310, R370). `targets` are those of a jix. -/
def State.advance (s : State) (core slot : Nat) (h : Head) (gm : Word) (targets : List (Nat × Nat × Word)) : State :=
  match s.beam? core slot with
  | none => s
  | some b =>
    let f := b.flow.advance h gm targets
    let s := s.setBeam core slot { b with
      flow := f, latch := if f.run.map (·.mask) == b.flow.run.map (·.mask) then b.latch else none }
    let s := match s.teamOf core b with
      | some t => s.failResponders t (lanesOf (f.exited &&& ~~~b.flow.exited))
      | none => s
    if b.handler.isSome && h.nas == .exit && gm != 0 then s.endInTrap core slot 0
    else if f.isOver then s.endBeam core slot
    else s

/-- The selector of an instruction whose operation has now completed takes effect, where the beam is awake (R60). -/
def State.finish (s : State) (core slot : Nat) : State :=
  match s.beam? core slot with
  | none => s
  | some b =>
    match b.sleep, b.pend with
    | .ready, some n => (s.setBeam core slot { b with pend := none }).advance core slot n.head n.gm n.targets
    | _, _ => s

/-- A pre-emption order reaches a beam (R296, R370): it is held in handler mode and while a completion trap may be due. A
`sleep` ends early, and a `wait` is tested again when the beam resumes (R231, R232). -/
def State.order (s : State) (core slot : Nat) : State :=
  match s.beam? core slot with
  | none => s
  | some b =>
    if b.handler.isSome || b.sleep == .prism then s.setBeam core slot { b with ordered := true }
    else
      let s := match b.sleep with
        | .wait _ _ => s.setBeam core slot { b with sleep := .ready, pend := none, ordered := false }
        | .sleeping => (s.setBeam core slot { b with sleep := .ready, ordered := false }).finish core slot
        | _ => (s.setBeam core slot { b with ordered := false }).finish core slot
      match s.beam? core slot with
      | none => s
      | some b => s.takeTrap core slot { cause := 0x11 } b.flow.pc none

end Sys2Proof.Machine
end

