-- ==== Sys2Proof/Machine/Flags.lean ====
section
/-!
DEFINITION. Guards, predicates and comparisons. The Krester keeps no condition flags (R109): comparisons write predicates,
and guards read them (R57).
-/
namespace Sys2Proof.Machine

/-- The guard-true threads of a path: each thread's own guard, or the one guard of a uniform instruction (R57). -/
def Beam.guardMask (b : Beam) (p : Path) (h : Head) : Word :=
  if h.uni then (if (b.qreg h.gidx.toNat).val ^^ h.gneg then p.mask else 0)
  else p.mask &&& maskOf (fun i => (b.preg i h.gidx.toNat).val ^^ h.gneg)

/-- The lowest thread of a path whose guard is poisoned (R385). -/
def Beam.guardPoison (b : Beam) (p : Path) (h : Head) : Option Nat :=
  if h.uni then (if (b.qreg h.gidx.toNat).pz then some 0 else none)
  else (lanesOf p.mask).find? (fun i => (b.preg i h.gidx.toNat).pz)

/-- A comparison code applied to two integer patterns of a type (R120). -/
def icompare (t : Ty) (cc a b : Nat) : Bool :=
  let x := t.val a
  let y := t.val b
  match cc with
  | 0 => decide (x = y)
  | 1 => decide (x ≠ y)
  | 2 => decide (x < y)
  | 3 => decide (x ≤ y)
  | 4 => decide (y < x)
  | _ => decide (y ≤ x)

/-- The bitwise operations of R116: 0 AND, 1 OR, 2 XOR, 3 AND NOT, on any width. -/
def logic (k a b : Nat) : Nat :=
  match k with
  | 0 => a &&& b
  | 1 => a ||| b
  | 2 => a ^^^ b
  | _ => a ^^^ (a &&& b)

/-- The operations of R116 on truth values. -/
def logicBool (k : Nat) (a b : Bool) : Bool :=
  match k with
  | 0 => a && b
  | 1 => a || b
  | 2 => a ^^ b
  | _ => a && !b

/-- Is the pattern one of the 256 launch markers (R96)? -/
def isMarker (w : Word) : Bool := decide (0x7FA0_0000 ≤ w.toNat) && decide (w.toNat ≤ 0x7FA0_00FF)

end Sys2Proof.Machine
end

