-- ==== Sys2Proof/Machine/Operands.lean ====
section
/-!
DEFINITION. Issue: the instruction that a beam presents, the checks made at issue in the order of R368, the operand forms
(R54 to R56, R85), how results are written (R64), and how an instruction that has issued ends.
-/
namespace Sys2Proof.Machine

/-- What presents an instruction: the beam that issues, its running path and its team. -/
structure Front where
  core : Nat
  slot : Nat
  b    : Beam
  p    : Path
  t    : Team
  deriving DecidableEq, Repr

/-- The beam that issues, where it has a running path. -/
def State.front (s : State) : Option Front :=
  match s.cur with
  | none => none
  | some (core, slot) =>
    match s.beam? core slot with
    | none => none
    | some b =>
      match b.flow.run, s.teamOf core b with
      | some p, some t => some { core := core, slot := slot, b := b, p := p, t := t }
      | _, _ => none

/-- An instruction at issue: `gm` are its guard-true threads, `targets` those of its jix. -/
structure Iss where
  f       : Front
  op      : Op
  h       : Head
  ms      : Mods
  e       : Entry
  gm      : Word
  targets : List (Nat × Nat × Word)

/-- The executions of an instruction: its guard-true threads, or one for a uniform instruction (R58). -/
def Iss.lanes (x : Iss) : List Nat := if x.h.uni then (if x.gm = 0 then [] else [0]) else lanesOf x.gm

/-- The reference of the issuing beam. -/
def Iss.ref (x : Iss) : BeamRef := { core := x.f.core, slot := x.f.slot, gen := x.f.b.gen }

/-- The address of the instruction. -/
def Iss.pc (x : Iss) : Word := x.f.p.pc

/-! ### Operand forms -/

/-- Register k of an operand that names v or c registers. -/
def Beam.reg (b : Beam) (o : Opnd) (lane k : Nat) : Cell32 :=
  match o with
  | .v n => b.vreg lane (n.toNat + k)
  | .c n => b.creg (n.toNat + k)
  | _ => {}

/-- The bits of an operand read as a type, with the mark of the registers read (R56, R85, R385): a pair for a 64-bit type; a
predicate as 0 or 1; nothing for `none`. -/
def Beam.operand (b : Beam) (imm : BitVec 20) (sat : Bool) (o : Opnd) (t : Ty) (lane : Nat) : Nat × Bool :=
  match o with
  | .v _ | .c _ =>
    let lo := b.reg o lane 0
    if t.wide then
      let hi := b.reg o lane 1
      (lo.val.toNat + 2 ^ 32 * hi.val.toNat, lo.pz || hi.pz)
    else (lo.val.toNat, lo.pz)
  | .p n => let r := b.preg lane n.toNat; (r.val.toNat, r.pz)
  | .q n => let r := b.qreg n.toNat; (r.val.toNat, r.pz)
  | .imm => (immValue imm t sat, false)
  | _ => (0, false)

/-- The bits of an operand in an execution. -/
def Iss.val (x : Iss) (o : Opnd) (t : Ty) (lane : Nat) : Nat := (x.f.b.operand x.h.imm x.ms.sat o t lane).1

/-- The mark of an operand in an execution. -/
def Iss.pz (x : Iss) (o : Opnd) (t : Ty) (lane : Nat) : Bool := (x.f.b.operand x.h.imm x.ms.sat o t lane).2

/-- Is a register that a position reads poisoned in an execution? -/
def Beam.poisoned (b : Beam) (s : Pos) (o : Opnd) (lane : Nat) : Bool :=
  s.read && match o with
  | .v _ | .c _ => (List.range s.span).any (fun k => (b.reg o lane k).pz)
  | .m n => (b.mreg lane n.toNat).pz
  | .p n => (b.preg lane n.toNat).pz
  | .q n => (b.qreg n.toNat).pz
  | _ => false

/-! ### Results -/

/-- A result of a type for one execution: a pair for a 64-bit type, and the higher bits of a narrower one zero (R85). -/
def Iss.out (x : Iss) (t : Ty) (lane v : Nat) (pz : Bool) : RegOut :=
  let lo : Cell32 := { val := BitVec.ofNat 32 v, pz := pz }
  wordsOut x.h.uni x.f.b x.h.d lane (if t.wide then [lo, { val := BitVec.ofNat 32 (v / 2 ^ 32), pz := pz }] else [lo])

/-- A predicate result for one execution. -/
def Iss.outPred (x : Iss) (lane : Nat) (v pz : Bool) : RegOut :=
  match x.h.d with
  | .p n => { p := [(lane + 32 * n.toNat, { val := v, pz := pz })] }
  | .q n => { q := [(n.toNat, { val := v, pz := pz })] }
  | _ => {}

/-- Several result words for one execution. -/
def Iss.outWords (x : Iss) (lane : Nat) (ws : List Cell32) : RegOut := wordsOut x.h.uni x.f.b x.h.d lane ws

/-- The results of every execution together. -/
def Iss.each (x : Iss) (f : Nat → RegOut) : RegOut := RegOut.all (x.lanes.map f)

/-- Does a result carry a mark? -/
def RegOut.marked (o : RegOut) : Bool :=
  o.v.any (·.2.pz) || o.c.any (·.2.pz) || o.m.any (·.2.pz) || o.p.any (·.2.pz) || o.q.any (·.2.pz)

/-! ### The checks at issue (R368) -/

/-- What the checks at issue say. -/
inductive Gate where
  | hold
  | trap (t : Trap)
  | go (x : Iss)

/-- The limits under which the decoder checks a beam's word (R55, R373). -/
def Beam.limits (b : Beam) : Limits :=
  { vregs := b.decl.vregs, cregs := b.decl.cregs, mcount := b.decl.mcount, handler := b.handler.isSome
    resume := match b.handler with | some h => h.cause == 0x12 | none => false }

/-- The control-flow faults of the selector that need no operand (R59, R61, R62, R80, R239), given the guard-true threads.
Where several apply, 0x11 comes first, also for an rte or a kill at index 5,460 after which no thread goes on (log entry 129). -/
def navFault (d : VDev) (f : Flow) (p : Path) (h : Head) (gm : Word) : Option Nat :=
  let straight : Bool := gm != p.mask || h.nas == .seq
  if gm != 0 && (h.nas == .jmp || h.nas == .call) && !idxOk (offsetIdx p.pc h.imm) then some 0x11
  else if straight && decide (lastIdx ≤ idxOf p.pc) then some 0x11
  else if gm = 0 then none
  else match h.nas with
    | .jix => if (d.jtabs.look (h.imm.toNat % 2 ^ 10)).isSome then none else some 0x13
    | .ret => if (f.callEntry p.top).isSome then none else some 0x16
    | .call => if (f.stack.free f.room).isSome then none else some 0x17
    | _ => none

/-- The source positions that are read, in order: operand, wait bit, position (R64). -/
def Iss.sources (x : Iss) : List (Opnd × Bool × Pos × Nat) :=
  [(x.h.a, x.h.wa, x.e.a, 0), (x.h.b, x.h.wb, x.e.b, 1)] ++ (if x.e.c.read then [(x.h.c, x.h.wc, x.e.c, 2)] else [])

/-- The registers that D names, and B where it is written (R64). -/
def Iss.dests (x : Iss) : List Names :=
  x.f.b.names x.e.d x.h.d :: (if x.e.writesB then [x.f.b.names x.e.b x.h.b] else [])

/-- The launch-marker check (R97): the lowest position, within it the lowest lane, and within that the lowest register (log entry
130); every executing lane of A, be its word part of the image that unpackb reads or not (DESIGN CHOICE, log entry 159). -/
def Iss.markerTrap (x : Iss) : Option Trap :=
  if x.f.b.decl.noinit then none
  else
    x.sources.findSome? (fun (o, _, s, k) =>
      match o, s.fp with
      | .v _, true =>
        x.lanes.findSome? (fun i =>
          (List.range s.span).findSome? (fun j =>
            let w := (x.f.b.reg o i j).val
            if isMarker w then some { cause := 0x04, lane := i, pos := k, addr := BitVec.ofNat 64 (w.toNat % 256) } else none))
      | _, _ => none)

/-- The poison trap of the lowest position of some, and in it of the lowest lane, that is poisoned (R385). -/
def Iss.poisonAt (x : Iss) (at_ : Pos → Nat → Bool) : Option Trap :=
  x.sources.findSome? (fun (o, _, s, k) =>
    if at_ s k then (x.lanes.find? (fun i => x.f.b.poisoned s o i)).map (fun i => { cause := 0x0A, lane := i, pos := k }) else none)

/-- The poison of operands that select, or that feed state without a mark (R385). -/
def Iss.poisonTrap (x : Iss) : Option Trap :=
  match x.f.b.guardPoison x.f.p x.h with
  | some i => some { cause := 0x0A, lane := i, pos := 3 }
  | none => x.poisonAt (fun s k => s.sel || (x.h.nas == .jix && k == 2))

/-- The index and target of a jix for one execution, or the reason of its fault; a target overlay in flight holds (R61). -/
inductive JixStep where
  | to (index : Nat) (target : Word)
  | wait
  | fault (reason : Nat)

/-- Checks 2 to 4 of R61 for one thread's index. DESIGN CHOICE (log entry 169): a word with the opcode of `lpad` that is no legal encoding is
no `lpad`. -/
def jixTarget (d : VDev) (c : Core) (id index : Nat) : JixStep :=
  match d.jtabs.look id with
  | none => .fault 0x13
  | some tab =>
    match tab.entries[index]? with
    | none => .fault 0x12
    | some target =>
      match c.slotOf (ovlOf target) with
      | none => if (c.loadingIn (ovlOf target)).isSome then .wait else .fault 0x14
      | some slot =>
        let pad : Bool := match decodeWord (c.word slot (idxOf target)) with
          | some (.lpad h) => h.imm.toNat % 2 ^ 10 == id
          | _ => false
        if d.strict && !pad then .fault 0x15 else .to index target

/-- The targets of a jix, lane by lane; the lowest reason in the order of R61 over its threads is reported. -/
def Iss.jix (x : Iss) (d : VDev) (c : Core) : List JixStep :=
  x.lanes.map (fun i => jixTarget d c (x.h.imm.toNat % 2 ^ 10) (x.f.b.reg x.h.c i 0).val.toNat)

/-- The checks that need the index of a jix (R61, R368), and the targets. -/
def Iss.jixGate (x : Iss) (d : VDev) (c : Core) : Gate :=
  if x.h.nas != .jix then .go x
  else
    let steps := x.jix d c
    let has (r : Nat) : Bool := steps.any (fun j => match j with | .fault q => q == r | _ => false)
    if has 0x12 then .trap { cause := 0x02, reason := 0x12 }
    else if has 0x14 then .trap { cause := 0x02, reason := 0x14 }
    else if steps.any (fun j => match j with | .wait => true | _ => false) then .hold
    else if has 0x15 then .trap { cause := 0x02, reason := 0x15 }
    else
      let lanes := if x.h.uni then (if x.gm = 0 then [] else lanesOf x.gm) else x.lanes
      .go { x with targets := lanes.filterMap (fun i =>
        match jixTarget d c (x.h.imm.toNat % 2 ^ 10) (x.f.b.reg x.h.c i 0).val.toNat with
        | .to n t => some (i, n, t)
        | _ => none) }

/-- Does something in flight hold the beam's issue whatever the word: a handler whose beam still has results or accesses to
finish (R111, R147, R211)? -/
def Beam.drains (b : Beam) : Bool := !b.drain.isEmpty

/-- The checks of R368 for an instruction that a beam presents. Where no thread's guard is true, an empty register still holds it (R64; log
entry 128), but it takes no empty-read trap (R34, R57). -/
def State.gate (s : State) (f : Front) (op : Op) (h : Head) (ms : Mods) : Gate :=
  match s.vds.look f.t.vd with
  | none => .hold
  | some d =>
    match entryReason f.b.limits op h ms with
    | some r => .trap { cause := 0x01, reason := r.toNat }
    | none =>
      let x : Iss := { f := f, op := op, h := h, ms := ms, e := op.entry h ms, gm := f.b.guardMask f.p h, targets := [] }
      match navFault d f.b.flow f.p h x.gm with
      | some r => .trap { cause := 0x02, reason := r }
      | none =>
        if x.dests.any f.b.anyEmpty then .hold
        else
          let empty := x.sources.filter (fun q => f.b.anyEmpty (f.b.names q.2.2.1 q.1))
          match (if x.gm = 0 then none else empty.find? (fun q => !q.2.1)) with
          | some q => .trap { cause := 0x03, pos := q.2.2.2 }
          | none =>
            if !empty.isEmpty then .hold
            else match x.markerTrap with
              | some t => .trap t
              | none =>
                match x.poisonTrap with
                | some t => .trap t
                | none => x.jixGate d (s.core f.core)

/-! ### Order within threads (R195) -/

/-- The threads that perform an instruction: the executing lanes, or the beam's uniform thread, numbered 32 (R195). -/
def Iss.threads (x : Iss) : List Nat := if x.h.uni then (if x.lanes.isEmpty then [] else [32]) else x.lanes

/-- The thread number of an execution. -/
def Iss.thread (x : Iss) (lane : Nat) : Nat := if x.h.uni then 32 else lane

/-- The threads in whose program order a synchronisation instruction stands (R195). -/
def Iss.pathThreads (x : Iss) : List Nat := lanesOf x.f.p.mask ++ [32]

/-- Has a uniform instruction of group 0x7 or 0x8 put an access before those that a thread of the beam makes now (R195)? -/
def Beam.joins (b : Beam) (thread id : Nat) : Bool := (b.joined.getD thread []).contains id

/-- The accesses that come before a new one of some threads of the issuing beam in program order and have not been performed: those
of the threads themselves, and those joined to them (R195, R200). -/
def State.undone (s : State) (x : Iss) (threads : List Nat) : List GOp :=
  s.gops.filter (fun g => g.beam == x.ref && !g.settled &&
    (g.lanes.any (fun a => threads.contains a.lane) || threads.any (fun t => x.f.b.joins t g.id)))

/-- A list of names put at some keys; an empty list stands at none. -/
def putNames (m : FMap (List Nat)) (ks ids : List Nat) : FMap (List Nat) :=
  if ids.isEmpty then m.filter (fun e => !ks.contains e.1) else ks.foldl (fun m k => m.put k ids) m

/-- Does an instruction stand in the program order of every thread of its path: a uniform one of group 0x7 or 0x8 (R195)? -/
def Iss.joins (x : Iss) : Bool := x.h.uni && !x.lanes.isEmpty && (x.op.code / 64 == 7 || x.op.code / 64 == 8)

/-- The thread that a row of a copy belongs to (R195). -/
def Copy.threadOf (c : Copy) (r : Row) : Nat := match c.kind with | .bulk => 32 | _ => r.key

/-- The copies of the issuing beam that still have sources to read, and come before what some threads do now: copies of those threads, and
those joined to them (R195, R198). -/
def State.copiesDue (s : State) (x : Iss) (threads : List Nat) : List Nat :=
  (s.copies.filter (fun c => c.beam == x.ref && (c.rows.any (fun r => r.waits && threads.contains (c.threadOf r)) ||
    (c.reading && threads.any (fun t => x.f.b.joins t c.id))))).map (·.id)

/-- The `ovl` instructions of the issuing beam that still read their images, and come before what some threads do now: the uniform
thread's own, and those joined to the threads (R195, R198). -/
def State.imagesDue (s : State) (x : Iss) (threads : List Nat) : List Nat :=
  (s.ovls.filter (fun l => l.beam == some x.ref && !l.fetch &&
    (threads.contains 32 || threads.any (fun t => x.f.b.joins t l.id)))).map (·.id)

/-- Do copies or `ovl` instructions still have to read what comes before what some threads do now (R198)? -/
def State.readsBefore (s : State) (x : Iss) (threads : List Nat) : Bool :=
  !(s.copiesDue x threads).isEmpty || !(s.imagesDue x threads).isEmpty

/-- Older bytes of the issuing beam given up. -/
def State.giveUp (s : State) (x : Iss) (p : Older → Bool) : State :=
  s.updCore x.f.core (fun c => { c with older := c.older.filter (fun e => !(e.slot == x.f.slot && p e)) })

/-- Is an instruction one whose plain accesses read or write the scratchpad (R195)? -/
def isPlainSpad : Op → Bool
  | .mld | .mst | .mmasp | .copy | .bcopy | .ncopy | .spawn | .spawnTry => true
  | _ => false

/-- The accesses of a path in flight put before the later ones of each of its threads, where the instruction joins them, and the copies and
`ovl` instructions that still read (R195); what they have read or written none of them sees older bytes than, nor does a thread after a
plain access of its own to the scratchpad (R198, R200). -/
def State.join (s : State) (x : Iss) : State :=
  if x.joins then
    let ids := (s.undone x x.pathThreads).map (·.id) ++ s.copiesDue x x.pathThreads ++ s.imagesDue x x.pathThreads
    (s.updBeam x.f.core x.f.slot (fun b => { b with joined := putNames b.joined x.pathThreads ids })).giveUp x
      (fun e => x.pathThreads.contains e.thread)
  else if isPlainSpad x.op then s.giveUp x (fun e => e.spad && x.threads.contains e.thread)
  else s

/-- Is the result of an instruction that of a marked read (R195)? -/
def isMarkedRead : Op → Bool
  | .ld | .lds | .atoms | .lda | .atom => true
  | _ => false

/-- Is the result of an instruction a status that is counted where it is dropped (R189)? -/
def isStatusWord : Op → Bool
  | .ovl | .dirmove | .solicit => true
  | _ => false

/-! ### How an instruction that has issued ends -/

/-- What an instruction's own part says once the checks of every instruction have passed. -/
inductive Res where
  /-- Issue holds: nothing happens. -/
  | hold
  /-- Issue holds, for a page walk that the instruction has begun or joined (R193). -/
  | walk (s : State)
  /-- One of the instruction's own faults (R368, item 5). -/
  | trap (t : Trap)
  /-- A trap after effects that stand: responses before the faulting lane (R325), walks, an error found in a line (R383). -/
  | trapIn (t : Trap) (s : State)
  /-- Results written at issue. -/
  | write (o : RegOut) (s : State)
  /-- Results that fill an emptied destination later (R64). -/
  | send (o : RegOut) (s : State)
  /-- The operation empties and fills its destination by other means; the selector takes effect at once. -/
  | sent (s : State)
  /-- The beam leaves the ready set; the selector waits for the operation (R60). -/
  | sleep (w : Sleep) (s : State)
  /-- The operation completes and then traps (R263, R372). -/
  | after (t : Trap) (s : State)
  /-- The instruction itself changes the beam's flow: `rte` and `kill`. -/
  | leave (s : State)

/-- The overlays from which instructions of a launch have issued, with their digests (R363). -/
def State.noteOverlay (s : State) (v l ovl : Nat) (digest : BitVec 512) : State :=
  s.updLaunch v l (fun x => if (x.ovls.look ovl).isSome then x else { x with ovls := x.ovls.put ovl digest })

/-- An ordinary team issues on its core: the launch's first there has (R259), and where it is the first placed since a wake, the wake is
counted no longer (R336). -/
def State.noteIssue (s : State) (x : Iss) : State :=
  if x.f.b.resp.isSome then s
  else s.updVd x.f.t.vd (fun d => { d with
    launches := d.launches.upd x.f.t.launch (fun l => { l with entered := markIn l.entered x.f.core })
    wokeBy := d.wokeBy.map (fun f => { f with issued := f.issued || (f.launch == x.f.t.launch && f.team == x.f.t.index) }) })

/-- The digest of the overlay that a core's slot holds; of one that its instruction has just replaced, as the virtual device has it. -/
def State.digestOf (s : State) (core v ovl : Nat) : BitVec 512 :=
  match (s.core core).slotOf ovl with
  | some k => ((s.core core).slots.getD k {}).digest
  | none => ((s.vds.look v).bind (fun d => d.overlays.look ovl)).elim 0 (·.digest)

/-- Does an execution read a marked operand (R387)? -/
def Iss.readsPoison (x : Iss) : Bool :=
  (x.f.b.guardPoison x.f.p x.h).isSome || x.lanes.any (fun i =>
    x.f.b.poisoned x.e.a x.h.a i || x.f.b.poisoned x.e.b x.h.b i || x.f.b.poisoned x.e.c x.h.c i ||
      (x.e.readsD && x.f.b.poisoned x.e.d x.h.d i))

/-- Is an instruction counted at issue as one that meets poison, whatever it goes on to do: once for each instruction (R387)? -/
def Iss.counted (x : Iss) : Bool := x.readsPoison || x.f.b.found

/-- The count of an instruction that has met poison by its own part, where it is not counted at issue anyway (R387). -/
def State.meets (s : State) (x : Iss) (poison : Bool) : State :=
  if poison && !x.counted then s.countPoison x.f.t.vd x.f.t.launch else s

/-- The issuing beam's latch, overlay record and poison count after an instruction that was not held; it holds for no walk any longer
(R65, R193, R363, R387). -/
def State.issued (s : State) (x : Iss) (marked : Bool) : State :=
  let s := (s.noteOverlay x.f.t.vd x.f.t.launch (ovlOf x.pc) (s.digestOf x.f.core x.f.t.vd (ovlOf x.pc))).noteIssue x
  let s := if marked || x.counted then s.countPoison x.f.t.vd x.f.t.launch else s
  (s.updBeam x.f.core x.f.slot (fun b => { b with latch := if x.h.reuse then some x.h.b else none, missed := [], found := false })).unhold x.ref

/-- An issue that ends in a trap of its word, or of its lack: what it has detected is counted (R387). -/
def State.detected (s : State) (f : Front) : State :=
  if f.b.found then (s.countPoison f.t.vd f.t.launch).updBeam f.core f.slot (fun b => { b with found := false }) else s

/-- The registers an instruction names as written, together. -/
def Iss.written (x : Iss) : Names :=
  x.dests.foldl (fun a n => { v := a.v ++ n.v, c := a.c ++ n.c, m := a.m ++ n.m }) {}

/-- The selector of an instruction, for when its operation completes later (R60). -/
def Iss.sel (x : Iss) : Sel := { head := x.h, gm := x.gm, targets := x.targets }

/-- The selector of an issued instruction takes effect. -/
def State.go (s : State) (x : Iss) : State := s.advance x.f.core x.f.slot x.h x.gm x.targets

/-- The destination emptied at issue and a result put in flight, where some thread executes (R64). -/
def State.sendFill (s : State) (x : Iss) (o : RegOut) (prism : Option PrismOut) : State :=
  if x.lanes.isEmpty then s
  else
    let (id, s) := s.name
    (s.updBeam x.f.core x.f.slot (fun b => b.empty x.written)).addFill
      { id := id, beam := x.ref, names := x.written, out := o, prism := prism, gop := none
        reads := if isMarkedRead x.op then x.threads else [], drop := if isStatusWord x.op then some x.f.t.vd else none }

/-- The state after an instruction's own part. -/
def State.apply (s : State) (x : Iss) : Res → State
  | .hold => s
  | .walk s' => s'
  | .trap t => (s.issued x (t.cause == 0x0A)).takeTrap x.f.core x.f.slot t x.pc none
  | .trapIn t s' => (s'.issued x (t.cause == 0x0A)).takeTrap x.f.core x.f.slot t x.pc none
  | .write o s' => (((s'.issued x o.marked).join x).updBeam x.f.core x.f.slot (fun b => b.write o)).go x
  | .send o s' => (((s'.issued x o.marked).join x).sendFill x o none).go x
  | .sent s' => ((s'.issued x false).join x).go x
  | .sleep w s' =>
    ((s'.issued x false).join x).updBeam x.f.core x.f.slot (fun b => { b with sleep := w, pend := some x.sel })
  | .after t s' => (s'.issued x false).takeTrap x.f.core x.f.slot t x.pc (some x.sel)
  | .leave s' => s'

/-- An instruction that a beam issues: the checks of R368, then its own part. -/
def State.issue (s : State) (op : Op) (h : Head) (ms : Mods) (body : Iss → State → Res) : Out :=
  match s.front with
  | none => .refused .noIssuingBeam
  | some f =>
    match s.gate f op h ms with
    | .hold => .next s
    | .trap t =>
      let x : Iss := { f := f, op := op, h := h, ms := ms, e := op.entry h ms, gm := f.b.guardMask f.p h, targets := [] }
      .next ((if t.cause == 0x01 then s.detected f else s.issued x (t.cause == 0x0A)).takeTrap f.core f.slot t f.p.pc none)
    | .go x => .next (s.apply x (body x s))

/-! ### The return from a trap (R373) -/

/-- The selector of the instruction at a path's address, for the threads whose guard is true: none where the word is not resident or illegal,
or where a check of its selector fails. -/
def State.selectorAt (s : State) (core slot : Nat) (b : Beam) (p : Path) : Option Sel :=
  match s.teamOf core b, (s.core core).slotOf (ovlOf p.pc) with
  | some t, some k =>
    let w := (s.core core).word k (idxOf p.pc)
    match s.vds.look t.vd, (if (illegalReason b.limits w).isSome then none else (decodeWord w).bind (·.view)) with
    | some d, some (op, h, ms) =>
      let x : Iss := { f := { core := core, slot := slot, b := b, p := p, t := t }, op := op, h := h, ms := ms, e := op.entry h ms
                       gm := b.guardMask p h, targets := [] }
      match navFault d b.flow p h x.gm, x.jixGate d (s.core core) with
      | none, .go y => some { head := h, gm := y.gm, targets := y.targets }
      | _, _ => none
    | _, _ => none
  | _, _ => none

/-- The selector that a return with DONE set applies: the one recorded at the completion of the instruction at `%tpc`; where the handler has
set DONE for an instruction that recorded none, that instruction's own (log entry 120). -/
def State.returnSel (s : State) (core slot : Nat) (b : Beam) (h : Handler) : Option Sel :=
  match b.tcause.getLsbD 29, h.frozen.run with
  | true, some p =>
    let own : Option Sel :=
      s.selectorAt core slot { b with handler := none, flow := h.frozen.setRun (fun q => { q with pc := b.tpc }) } { p with pc := b.tpc }
    match h.nas with
    | some n => if p.pc = b.tpc then some n else own
    | none => if h.sleep == .ready && h.pend.isNone then own else none
  | _, _ => none

/-- A beam as `rte` and `ctxld` resume it (R373): where a selector is given it is applied to the path at `%tpc`, and otherwise the running
path issues at `%tpc`. A beam that was asleep resumes asleep. -/
def Beam.resumed (b : Beam) (h : Handler) (sel : Option Sel) : Beam :=
  let f := h.frozen
  let flow :=
    match sel with
    | some n => (f.setRun (fun q => { q with pc := b.tpc })).advance n.head n.gm n.targets
    | none =>
      match h.sleep, h.pend, f.run with
      | .ready, none, some p => ({ f with paths := f.others }.addRunning { p with pc := b.tpc }).settle
      | _, _, _ => f
  { b with handler := none, flow := flow, sleep := h.sleep, pend := h.pend, latch := none, drain := [], fetch := false
           emptyC := b.emptyC.filter (fun n => decide (n < 112)) }

/-- `rte` (R373): the beam leaves handler mode; a responder that exits by the selector applied, without an answer, becomes an error (R310);
an order that was held is taken at once (R370). -/
def State.returnFrom (s : State) (core slot : Nat) : State :=
  match s.beam? core slot with
  | none => s
  | some b =>
    match b.handler with
    | none => s
    | some h =>
      let b := b.resumed h (s.returnSel core slot b h)
      let s := s.setBeam core slot b
      let s := match s.teamOf core b with
        | some t => s.failResponders t (lanesOf (b.flow.exited &&& ~~~h.frozen.exited))
        | none => s
      if b.flow.isOver then s.endBeam core slot
      else if b.ordered then s.order core slot
      else s

end Sys2Proof.Machine
end

