-- ==== Sys2Proof/Machine/Int.lean ====
section
/-!
DEFINITION. Group 0x0: integer and address instructions (R109 to R121).
-/
namespace Sys2Proof.Machine

/-- Operand A as an integer of a type (R112). -/
def Iss.ai (x : Iss) (t : Ty) (i : Nat) : Int := t.val (x.val x.h.a t i)

/-- Operand B as an integer of a type. -/
def Iss.bi (x : Iss) (t : Ty) (i : Nat) : Int := t.val (x.val x.h.b t i)

/-- Operand C as an integer of a type; 0 where C is none. -/
def Iss.ci (x : Iss) (t : Ty) (i : Nat) : Int := t.val (x.val x.h.c t i)

/-- Operand A as a w-bit pattern. -/
def Iss.an (x : Iss) (t : Ty) (i : Nat) : Nat := x.val x.h.a t i % 2 ^ t.width

/-- Operand B as a w-bit pattern. -/
def Iss.bn (x : Iss) (t : Ty) (i : Nat) : Nat := x.val x.h.b t i % 2 ^ t.width

/-- Operand B as an unsigned 32-bit value. -/
def Iss.b32 (x : Iss) (i : Nat) : Nat := x.val x.h.b .n32 i % 2 ^ 32

/-- Operand C as an unsigned 32-bit value. -/
def Iss.c32 (x : Iss) (i : Nat) : Nat := x.val x.h.c .n32 i % 2 ^ 32

/-- Is a value operand of an execution poisoned, so that its results are (R385)? -/
def Iss.marked (x : Iss) (i : Nat) : Bool :=
  x.f.b.poisoned x.e.a x.h.a i || x.f.b.poisoned x.e.b x.h.b i || x.f.b.poisoned x.e.c x.h.c i ||
    (x.e.readsD && x.f.b.poisoned x.e.d x.h.d i)

/-- Results of every execution: a value of a type from the operands of the same execution (R109). -/
def Iss.map (x : Iss) (t : Ty) (f : Iss → Nat → Nat) : RegOut := x.each (fun i => x.out t i (f x i) (x.marked i))

/-- Predicate results of every execution. -/
def Iss.mapPred (x : Iss) (f : Iss → Nat → Bool) : RegOut := x.each (fun i => x.outPred i (f x i) (x.marked i))

/-- An instruction of layout A that computes each thread's result from that thread's operands, visible to the next
instruction (R109). -/
def alu (op : Op) (h : Head) (m : ModA) (t : Ty) (f : Iss → Nat → Nat) (s : State) : Out :=
  s.issue op h (.a m) (fun x s => .write (x.map t f) s)

/-- The same, where the result fills D later (R64, R77). -/
def aluLater (op : Op) (h : Head) (m : ModA) (t : Ty) (f : Iss → Nat → Nat) (s : State) : Out :=
  s.issue op h (.a m) (fun x s => .send (x.map t f) s)

/-- The same, with a predicate result. -/
def aluPred (op : Op) (h : Head) (m : ModA) (f : Iss → Nat → Bool) (s : State) : Out :=
  s.issue op h (.a m) (fun x s => .write (x.mapPred f) s)

/-! ### Arithmetic (R113 to R115) -/

/-- `add`: fit(a + b + c). -/
def addOf (m : ModA) (x : Iss) (i : Nat) : Nat := m.ty.fit m.sat (x.ai m.ty i + x.bi m.ty i + x.ci m.ty i)

/-- `sub`: fit(a − b). -/
def subOf (m : ModA) (x : Iss) (i : Nat) : Nat := m.ty.fit m.sat (x.ai m.ty i - x.bi m.ty i)

/-- `addc`: the carry out of a + b + (c mod 2). -/
def addcOf (m : ModA) (x : Iss) (i : Nat) : Nat :=
  ((x.ai m.ty i + x.bi m.ty i + x.ci m.ty i % 2) / (2 ^ m.ty.width : Int)).toNat

/-- `mul`: fit(a × b). -/
def mulOf (m : ModA) (x : Iss) (i : Nat) : Nat := m.ty.fit m.sat (x.ai m.ty i * x.bi m.ty i)

/-- `mulhi`: the high word of the exact product. -/
def mulhiOf (m : ModA) (x : Iss) (i : Nat) : Nat := m.ty.wrap (x.ai m.ty i * x.bi m.ty i / (2 ^ m.ty.width : Int))

/-- `mad`: fit(a × b + c). -/
def madOf (m : ModA) (x : Iss) (i : Nat) : Nat := m.ty.fit m.sat (x.ai m.ty i * x.bi m.ty i + x.ci m.ty i)

/-- The truncated quotient of two integers of a type, with the corners of R114. -/
def divInt (t : Ty) (sat : Bool) (a b : Int) : Nat := if b = 0 then t.wrap (-1) else t.fit sat (a.tdiv b)

/-- The truncated remainder, with the corners of R114. -/
def remInt (t : Ty) (a b : Int) : Nat := if b = 0 then t.wrap a else t.wrap (a.tmod b)

/-- `div`. -/
def divOf (m : ModA) (x : Iss) (i : Nat) : Nat := divInt m.ty m.sat (x.ai m.ty i) (x.bi m.ty i)

/-- `rem`. -/
def remOf (m : ModA) (x : Iss) (i : Nat) : Nat := remInt m.ty (x.ai m.ty i) (x.bi m.ty i)

/-- `min` by typed value. -/
def minOf (m : ModA) (x : Iss) (i : Nat) : Nat := m.ty.wrap (min (x.ai m.ty i) (x.bi m.ty i))

/-- `max` by typed value. -/
def maxOf (m : ModA) (x : Iss) (i : Nat) : Nat := m.ty.wrap (max (x.ai m.ty i) (x.bi m.ty i))

/-- `abs`: fit(|a|). -/
def absOf (m : ModA) (x : Iss) (i : Nat) : Nat := m.ty.fit m.sat (x.ai m.ty i).natAbs

/-- `neg`: fit(−a). -/
def negOf (m : ModA) (x : Iss) (i : Nat) : Nat := m.ty.fit m.sat (-(x.ai m.ty i))

/-- R113: a + b + c, wrapped or saturated. -/
def execAdd (h : Head) (m : ModA) (s : State) : Out := alu .add h m m.ty (addOf m) s

/-- R113: a − b. -/
def execSub (h : Head) (m : ModA) (s : State) : Out := alu .sub h m m.ty (subOf m) s

/-- R113: the carry, as a 32-bit value. -/
def execAddc (h : Head) (m : ModA) (s : State) : Out := alu .addc h m .n32 (addcOf m) s

/-- R113: a × b. -/
def execMul (h : Head) (m : ModA) (s : State) : Out := alu .mul h m m.ty (mulOf m) s

/-- R113: the high word of a × b. -/
def execMulhi (h : Head) (m : ModA) (s : State) : Out := alu .mulhi h m m.ty (mulhiOf m) s

/-- R113: a × b + c. -/
def execMad (h : Head) (m : ModA) (s : State) : Out := alu .mad h m m.ty (madOf m) s

/-- R114: the quotient truncated toward zero. -/
def execDiv (h : Head) (m : ModA) (s : State) : Out := aluLater .div h m m.ty (divOf m) s

/-- R114: the remainder. -/
def execRem (h : Head) (m : ModA) (s : State) : Out := aluLater .rem h m m.ty (remOf m) s

/-- R115: the lesser. -/
def execMin (h : Head) (m : ModA) (s : State) : Out := alu .min h m m.ty (minOf m) s

/-- R115: the greater. -/
def execMax (h : Head) (m : ModA) (s : State) : Out := alu .max h m m.ty (maxOf m) s

/-- R115: the absolute value. -/
def execAbs (h : Head) (m : ModA) (s : State) : Out := alu .abs h m m.ty (absOf m) s

/-- R115: the negation. -/
def execNeg (h : Head) (m : ModA) (s : State) : Out := alu .neg h m m.ty (negOf m) s

/-! ### Logic (R116) -/

/-- A logic instruction on values, or on predicates where D is one. -/
def logicRes (k : Nat) (m : ModA) (x : Iss) : RegOut :=
  if x.h.d.isPred then x.mapPred (fun x i => logicBool k (x.val x.h.a .i32 i == 1) (x.val x.h.b .i32 i == 1))
  else x.map m.ty (fun x i => logic k (x.an m.ty i) (x.val x.h.b m.ty i % 2 ^ m.ty.width))

/-- R116: AND. -/
def execAnd (h : Head) (m : ModA) (s : State) : Out := s.issue .and h (.a m) (fun x s => .write (logicRes 0 m x) s)

/-- R116: OR. -/
def execOr (h : Head) (m : ModA) (s : State) : Out := s.issue .or h (.a m) (fun x s => .write (logicRes 1 m x) s)

/-- R116: XOR. -/
def execXor (h : Head) (m : ModA) (s : State) : Out := s.issue .xor h (.a m) (fun x s => .write (logicRes 2 m x) s)

/-- R116: AND NOT. -/
def execAndn (h : Head) (m : ModA) (s : State) : Out := s.issue .andn h (.a m) (fun x s => .write (logicRes 3 m x) s)

/-! ### Shifts and bit fields (R117, R118) -/

/-- `shl`: 0 from the width on. -/
def shlOf (m : ModA) (x : Iss) (i : Nat) : Nat :=
  let n := x.b32 i
  if m.ty.width ≤ n then 0 else x.an m.ty i * 2 ^ n % 2 ^ m.ty.width

/-- `shr`: logical, 0 from the width on. -/
def shrOf (m : ModA) (x : Iss) (i : Nat) : Nat :=
  let n := x.b32 i
  if m.ty.width ≤ n then 0 else x.an m.ty i / 2 ^ n

/-- `sar`: arithmetic under every type; copies of the sign from the width on. -/
def sarOf (m : ModA) (x : Iss) (i : Nat) : Nat :=
  let w := m.ty.width
  let a := x.an m.ty i
  let y : Int := if 2 ^ (w - 1) ≤ a then (a : Int) - 2 ^ w else a
  m.ty.wrap (y / (2 ^ min (x.b32 i) w : Int))

/-- `rot`: left by n mod w. -/
def rotOf (m : ModA) (x : Iss) (i : Nat) : Nat :=
  let w := m.ty.width
  let n := x.b32 i % w
  let a := x.an m.ty i
  (a * 2 ^ n + a / 2 ^ (w - n)) % 2 ^ w

/-- `clz`. -/
def clzOf (m : ModA) (x : Iss) (i : Nat) : Nat :=
  let a := x.an m.ty i
  if a = 0 then m.ty.width else m.ty.width - 1 - Nat.log2 a

/-- `ctz`. -/
def ctzOf (m : ModA) (x : Iss) (i : Nat) : Nat :=
  ((List.range m.ty.width).find? (fun k => (x.an m.ty i).testBit k)).getD m.ty.width

/-- `popc`. -/
def popcOf (m : ModA) (x : Iss) (i : Nat) : Nat :=
  ((List.range m.ty.width).filter (fun k => (x.an m.ty i).testBit k)).length

/-- `brev`. -/
def brevOf (m : ModA) (x : Iss) (i : Nat) : Nat :=
  (List.range m.ty.width).foldl (fun acc k => acc + if (x.an m.ty i).testBit k then 2 ^ (m.ty.width - 1 - k) else 0) 0

/-- `bfx`: the field at B[7:0] of length C[7:0], sign- or zero-extended. -/
def bfxOf (m : ModA) (x : Iss) (i : Nat) : Nat :=
  let len := min (x.c32 i % 256) m.ty.width
  let f := x.an m.ty i / 2 ^ (x.b32 i % 256) % 2 ^ len
  if len = 0 then 0
  else if m.ty.signed && f.testBit (len - 1) then m.ty.wrap ((f : Int) - 2 ^ len)
  else f

/-- `bfi`: the low bits of A in a field of D. -/
def bfiOf (m : ModA) (x : Iss) (i : Nat) : Nat :=
  let w := m.ty.width
  let pos := x.b32 i % 256
  let len := min (x.c32 i % 256) w
  let d := x.val x.h.d m.ty i % 2 ^ w
  if w ≤ pos then d
  else
    let n := min len (w - pos)
    d % 2 ^ pos + 2 ^ pos * (x.an m.ty i % 2 ^ n) + d / 2 ^ (pos + n) * 2 ^ (pos + n)

/-- R117. -/
def execShl (h : Head) (m : ModA) (s : State) : Out := alu .shl h m m.ty (shlOf m) s

/-- R117. -/
def execShr (h : Head) (m : ModA) (s : State) : Out := alu .shr h m m.ty (shrOf m) s

/-- R117. -/
def execSar (h : Head) (m : ModA) (s : State) : Out := alu .sar h m m.ty (sarOf m) s

/-- R117. -/
def execRot (h : Head) (m : ModA) (s : State) : Out := alu .rot h m m.ty (rotOf m) s

/-- R118: D is 32-bit. -/
def execClz (h : Head) (m : ModA) (s : State) : Out := alu .clz h m .n32 (clzOf m) s

/-- R118: D is 32-bit. -/
def execCtz (h : Head) (m : ModA) (s : State) : Out := alu .ctz h m .n32 (ctzOf m) s

/-- R118: D is 32-bit. -/
def execPopc (h : Head) (m : ModA) (s : State) : Out := alu .popc h m .n32 (popcOf m) s

/-- R118. -/
def execBrev (h : Head) (m : ModA) (s : State) : Out := alu .brev h m m.ty (brevOf m) s

/-- R118. -/
def execBfx (h : Head) (m : ModA) (s : State) : Out := alu .bfx h m m.ty (bfxOf m) s

/-- R118: D is read as well as written. -/
def execBfi (h : Head) (m : ModA) (s : State) : Out := alu .bfi h m m.ty (bfiOf m) s

/-! ### Addresses, selects, moves (R119 to R121) -/

/-- `lea`: (a + ext(b) × 2^s) mod 2^64, with s the low three bits of C, be it a register or an immediate (log entry 23). -/
def leaOf (m : ModA) (x : Iss) (i : Nat) : Nat :=
  let b : Int := if m.ty == .i32 then Ty.i32.val (x.val x.h.b .i32 i) else Ty.n32.val (x.val x.h.b .n32 i)
  Ty.n64.wrap ((x.val x.h.a .n64 i : Int) + b * 2 ^ (x.c32 i % 8))

/-- R119: the 64-bit address. -/
def execLea (h : Head) (m : ModA) (s : State) : Out := alu .lea h m .n64 (leaOf m) s

/-- R120: A where the predicate C is true, otherwise B. -/
def execSel (h : Head) (m : ModA) (s : State) : Out :=
  alu .sel h m m.ty (fun x i => if x.val h.c .i32 i = 1 then x.val h.a m.ty i else x.val h.b m.ty i) s

/-- R120: a comparison of typed values. -/
def execCmp (h : Head) (m : ModA) (s : State) : Out :=
  aluPred .cmp h m (fun x i => icompare m.ty m.sub.toNat (x.val h.a m.ty i) (x.val h.b m.ty i)) s

/-- R121: bits, or a predicate, unchanged. -/
def execMov (h : Head) (m : ModA) (s : State) : Out :=
  s.issue .mov h (.a m) (fun x s =>
    .write (if h.d.isPred then x.mapPred (fun x i => x.val h.a .i32 i == 1) else x.map m.ty (fun x i => x.val h.a m.ty i)) s)

/-- R121: the sign-extended immediate. -/
def execMovi (h : Head) (m : ModA) (s : State) : Out := alu .movi h m m.ty (fun x i => x.val h.a m.ty i) s

/-- R121: bits [31:20] of D replaced. -/
def execMovh (h : Head) (m : ModA) (s : State) : Out :=
  alu .movh h m .i32 (fun x i => x.val h.d .i32 i % 2 ^ 20 + h.imm.toNat % 2 ^ 12 * 2 ^ 20) s

/-- `ext`: the low bits of A extended to 32 bits, or to the pair D. -/
def extOf (m : ModA) (x : Iss) (i : Nat) : Nat :=
  let y := m.ty.val (x.val x.h.a .n32 i)
  if m.ty.width = 32 then Ty.n64.wrap y else Ty.n32.wrap y

/-- R121. -/
def execExt (h : Head) (m : ModA) (s : State) : Out :=
  alu .ext h m (if m.ty.width = 32 then .n64 else .n32) (extOf m) s

end Sys2Proof.Machine
end

