-- ==== Sys2Proof/Machine/Float.lean ====
section
/-!
DEFINITION. Group 0x1: element-wise floating point (R122 to R127).
-/
namespace Sys2Proof.Machine

/-- Operand A as an exact value of a floating type. -/
def Iss.af (x : Iss) (t : Ty) (i : Nat) : Ext := t.decode (x.val x.h.a t i)

/-- Operand B as an exact value of a floating type. -/
def Iss.bf (x : Iss) (t : Ty) (i : Nat) : Ext := t.decode (x.val x.h.b t i)

/-- Operand C as an exact value of a floating type. -/
def Iss.cf (x : Iss) (t : Ty) (i : Nat) : Ext := t.decode (x.val x.h.c t i)

/-- An exact value rounded once by the word's mode (R92, R93). -/
def rounded (m : ModA) (v : Iss → Nat → Ext) (x : Iss) (i : Nat) : Nat := m.ty.round m.rnd m.sat (v x i)

/-- The exact a + b. -/
def faddOf (m : ModA) (x : Iss) (i : Nat) : Ext := Ext.add m.rnd (x.af m.ty i) (x.bf m.ty i)

/-- The exact a − b. -/
def fsubOf (m : ModA) (x : Iss) (i : Nat) : Ext := Ext.add m.rnd (x.af m.ty i) (x.bf m.ty i).neg

/-- The exact a × b. -/
def fmulOf (m : ModA) (x : Iss) (i : Nat) : Ext := Ext.mul (x.af m.ty i) (x.bf m.ty i)

/-- The exact a × b + c. -/
def fmaOf (m : ModA) (x : Iss) (i : Nat) : Ext := Ext.add m.rnd (Ext.mul (x.af m.ty i) (x.bf m.ty i)) (x.cf m.ty i)

/-- R123: a + b. -/
def execFadd (h : Head) (m : ModA) (s : State) : Out := alu .fadd h m m.ty (rounded m (faddOf m)) s

/-- R123: a − b. -/
def execFsub (h : Head) (m : ModA) (s : State) : Out := alu .fsub h m m.ty (rounded m (fsubOf m)) s

/-- R123: a × b. -/
def execFmul (h : Head) (m : ModA) (s : State) : Out := alu .fmul h m m.ty (rounded m (fmulOf m)) s

/-- R123: a × b + c with one rounding. -/
def execFma (h : Head) (m : ModA) (s : State) : Out := alu .fma h m m.ty (rounded m (fmaOf m)) s

/-- a × 2^b: an exponent beyond ±5000 rounds as ±5000 does in every format. -/
def fscaleOf (m : ModA) (x : Iss) (i : Nat) : Nat :=
  match x.af m.ty i with
  | .fin g n e => m.ty.roundMag m.rnd m.sat g n (e + max (-5000) (min 5000 (x.bi .i32 i))) false
  | v => m.ty.round m.rnd m.sat v

/-- R123: a × 2^b. -/
def execFscale (h : Head) (m : ModA) (s : State) : Out := alu .fscale h m m.ty (fscaleOf m) s

/-- rint(mode, a) as a value of the type; the sign of a zero is kept. -/
def frintOf (m : ModA) (x : Iss) (i : Nat) : Nat :=
  match x.af m.ty i with
  | .fin g n e =>
    if 0 ≤ e then m.ty.roundMag m.rnd m.sat g n e false else m.ty.roundMag m.rnd m.sat g (rintMag m.rnd g n e) 0 false
  | v => m.ty.round m.rnd m.sat v

/-- R123: an integral value. -/
def execFrint (h : Head) (m : ModA) (s : State) : Out := alu .frint h m m.ty (frintOf m) s

/-- The four minima and maxima of R124, of the elements that the operands hold (R85). -/
def pickOf (m : ModA) (mx num : Bool) (x : Iss) (i : Nat) : Nat := fpick m.ty mx num (x.an m.ty i) (x.bn m.ty i)

/-- R124: minimumNumber. -/
def execFmin (h : Head) (m : ModA) (s : State) : Out := alu .fmin h m m.ty (pickOf m false true) s

/-- R124: maximumNumber. -/
def execFmax (h : Head) (m : ModA) (s : State) : Out := alu .fmax h m m.ty (pickOf m true true) s

/-- R124: minimum. -/
def execFminm (h : Head) (m : ModA) (s : State) : Out := alu .fminm h m m.ty (pickOf m false false) s

/-- R124: maximum. -/
def execFmaxm (h : Head) (m : ModA) (s : State) : Out := alu .fmaxm h m m.ty (pickOf m true false) s

/-- R125: a floating comparison. -/
def execFcmp (h : Head) (m : ModA) (s : State) : Out :=
  aluPred .fcmp h m (fun x i => fcompare m.ty m.sub.toNat (x.val h.a m.ty i) (x.val h.b m.ty i)) s

/-- R126: the class mask. -/
def execFclass (h : Head) (m : ModA) (s : State) : Out :=
  alu .fclass h m .n32 (fun x i => 2 ^ fclassBit m.ty (x.val h.a m.ty i)) s

/-- R127: a / b. -/
def execFdiv (h : Head) (m : ModA) (s : State) : Out :=
  aluLater .fdiv h m m.ty (fun x i => fdivide m.ty m.rnd m.sat (x.af m.ty i) (x.bf m.ty i)) s

/-- R127: 1 / a. -/
def execFrcp (h : Head) (m : ModA) (s : State) : Out :=
  aluLater .frcp h m m.ty (fun x i => fdivide m.ty m.rnd m.sat (.fin false 1 0) (x.af m.ty i)) s

/-- R127: √a. -/
def execFsqrt (h : Head) (m : ModA) (s : State) : Out :=
  aluLater .fsqrt h m m.ty (fun x i => fsqrtOf m.ty m.rnd m.sat (x.af m.ty i)) s

/-- R127: 1 / √a. -/
def execFrsq (h : Head) (m : ModA) (s : State) : Out :=
  aluLater .frsq h m m.ty (fun x i => frsqOf m.ty m.rnd m.sat (x.af m.ty i)) s

/-- R127: 2^a. -/
def execFexp2 (h : Head) (m : ModA) (s : State) : Out :=
  aluLater .fexp2 h m m.ty (fun x i => fexp2Of m.ty m.rnd m.sat (x.af m.ty i)) s

/-- R127: log2 a. -/
def execFlog2 (h : Head) (m : ModA) (s : State) : Out :=
  aluLater .flog2 h m m.ty (fun x i => flog2Of m.ty m.rnd m.sat (x.af m.ty i)) s

/-- R127: sin a. -/
def execFsin (h : Head) (m : ModA) (s : State) : Out :=
  aluLater .fsin h m m.ty (fun x i => fsinOf m.ty m.rnd m.sat (x.af m.ty i)) s

/-- R127: cos a. -/
def execFcos (h : Head) (m : ModA) (s : State) : Out :=
  aluLater .fcos h m m.ty (fun x i => fcosOf m.ty m.rnd m.sat (x.af m.ty i)) s

/-- R127: tanh a. -/
def execFtanh (h : Head) (m : ModA) (s : State) : Out :=
  aluLater .ftanh h m m.ty (fun x i => ftanhOf m.ty m.rnd m.sat (x.af m.ty i)) s

end Sys2Proof.Machine
end

