-- ==== Sys2Proof/Machine/Block.lean ====
section
/-!
DEFINITION. MX and Lumen blocks: building and decoding (R85 to R90), and element images (R135, R136).
-/
namespace Sys2Proof

/-- The element type of an MX format; `.mxi8` holds `.i8` codes (R86). -/
def Ty.mxElem : Ty → Ty
  | .mxe4m3 => .e4m3
  | .mxe5m2 => .e5m2
  | .mxe3m2 => .e3m2
  | .mxe2m3 => .e2m3
  | .mxe2m1 => .e2m1
  | _ => .i8

/-- Magnitude bits of a Lumen format (R88). -/
def Ty.lumBits : Ty → Nat
  | .lum2 => 2
  | .lum4 => 4
  | _ => 7

/-- Elements of a block; 1 for a scalar format. -/
def Ty.blockLen (t : Ty) : Nat := if t.isMx then 32 else if t.isLum then 16 else 1

/-- Bytes of a block image (R86, R88). -/
def Ty.blockBytes (t : Ty) : Nat :=
  if t.isMx then (t.mxElem.width * 32) / 8 + 1 else if t.isLum then 2 + 2 * (t.lumBits + 1) else 0

/-- emax of an MX element type (R87). -/
def Ty.emax : Ty → Int
  | .e4m3 => 8
  | .e5m2 => 15
  | .e3m2 => 4
  | .e2m3 | .e2m1 => 2
  | _ => 0

/-- An infinity replaced by the largest FP32 value of its sign (R87, R89). -/
def Ext.capped : Ext → Ext
  | .inf s => .fin s (2 ^ 24 - 1) 104
  | x => x

/-- A value times 2^k. -/
def Ext.scale (k : Int) : Ext → Ext
  | .fin s m e => .fin s m (e + k)
  | x => x

/-- The value of largest magnitude is 2^k to 2^(k+1): k, or none where every value is zero. -/
def maxLog (xs : List Ext) : Option Int :=
  xs.foldl (fun acc x =>
    if x.isZero then acc else some (match acc with | some k => max k x.log2 | none => x.log2)) none

/-- An element code of an MX block: rounded, and clamped to the largest finite value (R87). -/
def mxCode (f : Ty) (mode : Rnd) (y : Ext) : Nat :=
  if f == .i8 then
    match y with
    | .fin s m e =>
      let q : Int := rintMag mode s m (e + 6)
      Ty.i8.wrap (max (-127) (min 127 (if s then -q else q)))
    | _ => 0
  else f.round mode true y

/-- Codes of `w` bits packed from the low end up (R85), as one number. -/
def packCodes (w : Nat) (cs : List Nat) : Nat := cs.foldr (fun c acc => c % 2 ^ w + 2 ^ w * acc) 0

/-- An MX block built from 32 values (R87): its image as a number, elements first and the scale byte last (R86). -/
def buildMx (t : Ty) (mode : Rnd) (sat : Bool) (xs : List Ext) : Nat :=
  let f := t.mxElem
  let bits := 32 * f.width
  if xs.any (fun x => match x with | .nan => true | .inf _ => !sat | _ => false) then 0xFF * 2 ^ bits
  else
    let ys := xs.map Ext.capped
    let sc : Int := match maxLog ys with
      | none => 127
      | some k => min (max (k - f.emax + 127) 0) 254
    packCodes f.width (ys.map (fun y => mxCode f mode (y.scale (127 - sc)))) + sc.toNat * 2 ^ bits

/-- The magnitudes of Lumen elements at a scale. -/
def lumMag (mode : Rnd) (k : Int) : Ext → Nat
  | .fin s m e => rintMag mode s m (e + k)
  | _ => 0

/-- A Lumen block built from 16 values (R89): its image as a number. -/
def buildLum (t : Ty) (mode : Rnd) (sat : Bool) (xs : List Ext) : Nat :=
  let m := t.lumBits
  let q := 2 ^ m - 1
  if xs.any (fun x => match x with | .nan => true | .inf _ => !sat | _ => false) then 0xFF
  else
    let ys := xs.map Ext.capped
    let e0 : Int := match maxLog ys with
      | none => 0
      | some k => min (max (k + 127) 0) 254
    let mags (e : Int) : List Nat := ys.map (lumMag mode ((m : Int) - 1 + 127 - e))
    let big : Bool := (mags e0).any (fun x => decide (q < x))
    if big && e0 == 254 && !sat then 0xFF
    else
      let e := if big && decide (e0 < 254) then e0 + 1 else e0
      let base := (mags e).map (min q)
      let fine := ys.map (lumMag mode ((m : Int) + 127 - e))
      let micro (j : Nat) : Bool :=
        let a := 2 * j
        let nz : Bool := !((ys[a]?).getD .nan).isZero || !((ys[a + 1]?).getD .nan).isZero
        nz && decide ((fine[a]?).getD 0 ≤ q) && decide ((fine[a + 1]?).getD 0 ≤ q)
      let elem (i : Nat) : Nat :=
        let mag := if micro (i / 2) then (fine[i]?).getD 0 else (base[i]?).getD 0
        mag + if ((xs[i]?).getD .nan).sign then 2 ^ m else 0
      let u := (List.range 8).foldl (fun acc j => if micro j then acc + 2 ^ j else acc) 0
      e.toNat + 2 ^ 8 * u + 2 ^ 16 * packCodes (m + 1) ((List.range 16).map elem)

/-- A block built from its values. -/
def buildBlock (t : Ty) (mode : Rnd) (sat : Bool) (xs : List Ext) : Nat :=
  if t.isMx then buildMx t mode sat xs else buildLum t mode sat xs

/-- The value of element i of a block image (R86, R88). -/
def blockElem (t : Ty) (img i : Nat) : Ext :=
  if t.isMx then
    let f := t.mxElem
    let sc := img / 2 ^ (32 * f.width) % 256
    let c := img / 2 ^ (f.width * i) % 2 ^ f.width
    if sc = 0xFF then .nan
    else
      let v : Ext := if f == .i8 then (Ext.ofInt (Ty.i8.val c)).scale (-6) else f.decode c
      v.scale ((sc : Int) - 127)
  else
    let m := t.lumBits
    let e := img % 256
    let u := img / 2 ^ (8 + i / 2) % 2
    let c := img / 2 ^ (16 + (m + 1) * i) % 2 ^ (m + 1)
    if e = 0xFF then .nan
    else .fin (decide (2 ^ m ≤ c)) (c % 2 ^ m) ((e : Int) - 127 - u - (m - 1))

/-! ### Element images (R135) -/

/-- Bits of an element in an image of a scalar format. -/
def Ty.imageBits (t : Ty) : Nat := t.width

/-- The bytes of an image of n elements (R135). -/
def Ty.imageBytes (t : Ty) (n : Nat) : Nat :=
  if t.isBlock then n / t.blockLen * t.blockBytes
  else if t.width = 6 then (n + 3) / 4 * 3
  else (n * t.width + 7) / 8

/-- The slots of an image of n elements (R135). -/
def Ty.slots (t : Ty) (n : Nat) : Nat := (t.imageBytes n + 3) / 4

/-- May n elements be held in the format (R136)? -/
def Ty.holds (t : Ty) (n : Nat) : Bool := !t.isBlock || n % t.blockLen == 0

/-- The code of element i of a scalar image. -/
def imageCode (t : Ty) (img : List (BitVec 8)) (i : Nat) : Nat :=
  leNat ((img.drop (t.width * i / 8)).take 9) / 2 ^ (t.width * i % 8) % 2 ^ t.width

/-- The value of element i of an image (R136). -/
def imageElem (t : Ty) (img : List (BitVec 8)) (i : Nat) : Ext :=
  if t.isBlock then
    let n := t.blockLen
    blockElem t (leNat ((img.drop (i / n * t.blockBytes)).take t.blockBytes)) (i % n)
  else t.value (imageCode t img i)

/-- The image of element codes of a scalar format: its padding bits, under the 4- and 6-bit formats, are zeros, which the manual says
of `mld`, `mst` and `mzero` (R157, R159) and of no other result (log entry 151). -/
def imageOfCodes (t : Ty) (cs : List Nat) : List (BitVec 8) := leBytes (t.imageBytes cs.length) (packCodes t.width cs)

/-- Lists of n elements each. -/
def chunks {α : Type} (n : Nat) : Nat → List α → List (List α)
  | 0, _ => []
  | k + 1, l => l.take n :: chunks n k (l.drop n)

/-- The image of values: scalar formats by R95, block formats by R87 and R89 from FP32 values. -/
def imageOf (t : Ty) (mode : Rnd) (sat : Bool) (xs : List Ext) : List (BitVec 8) :=
  if t.isBlock then
    ((chunks t.blockLen (xs.length / t.blockLen) xs).map (fun b => leBytes t.blockBytes (buildBlock t mode sat b))).flatten
  else imageOfCodes t (xs.map (t.ofExt mode sat))

end Sys2Proof
end

