-- ==== Sys2Proof/Machine/Convert.lean ====
section
/-!
DEFINITION. Group 0x2: conversions, dot products and blocks across lanes (R128 to R132).
-/
namespace Sys2Proof.Machine

/-- `cvt`: one element converted (R95). -/
def cvtOf (m : ModB) (x : Iss) (i : Nat) : Nat := convert m.dty m.sty m.rnd m.sat (x.val x.h.a m.sty i)

/-- R128. -/
def execCvt (h : Head) (m : ModB) (s : State) : Out :=
  s.issue .cvt h (.b m) (fun x s => .write (x.map m.dty (cvtOf m)) s)

/-- The exact product of an element and an FP32 scale, rounded once (R129). An integer element 0 counts as +0, so that a negative scale gives
-0 (log entry 150). -/
def scaledOf (m : ModB) (x : Iss) (i : Nat) : Nat :=
  m.dty.ofExt m.rnd m.sat (Ext.mul (m.sty.value (x.val x.h.a m.sty i)) (Ty.f32.decode (x.val x.h.b .f32 i)))

/-- R129: quantisation with a scale. -/
def execCvtq (h : Head) (m : ModB) (s : State) : Out :=
  s.issue .cvtq h (.b m) (fun x s => .write (x.map m.dty (scaledOf m)) s)

/-- R129: dequantisation with a scale. -/
def execCvtd (h : Head) (m : ModB) (s : State) : Out :=
  s.issue .cvtd h (.b m) (fun x s => .write (x.map m.dty (scaledOf m)) s)

/-- Element k of a packed operand (R130). -/
def packed (t : Ty) (v k : Nat) : Nat := v / 2 ^ (t.width * k) % 2 ^ t.width

/-- The bits of a packed operand: a register, or an immediate as R56 reads one of the element type. A floating one is element 0, and the
others are +0 (log entry 21). -/
def Iss.pack (x : Iss) (o : Opnd) (t : Ty) (i : Nat) : Nat :=
  match o with
  | .imm => immValue x.h.imm t x.ms.sat
  | _ => x.val o .n32 i

/-- The exact sum of n products and the addend, rounded once (R102), or reduced or clamped for an integer type (R130). -/
def dotOf (n : Nat) (m : ModB) (x : Iss) (i : Nat) : Nat :=
  let a := x.pack x.h.a m.sty i
  let b := x.pack x.h.b m.sty i
  if m.sty.isInt then
    let sum := (List.range n).foldl (fun acc k => acc + m.sty.val (packed m.sty a k) * m.sty.val (packed m.sty b k)) (0 : Int)
    Ty.i32.fit m.sat (sum + Ty.i32.val (x.val x.h.c .i32 i))
  else
    let ts := (List.range n).map (fun k => Ext.mul (m.sty.decode (packed m.sty a k)) (m.sty.decode (packed m.sty b k)))
    m.dty.round m.rnd m.sat (Ext.sum (m.rnd == .rdn) (ts ++ [m.dty.decode (x.val x.h.c m.dty i)]))

/-- R130: two products. -/
def execDot2 (h : Head) (m : ModB) (s : State) : Out :=
  s.issue .dot2 h (.b m) (fun x s => .write (x.map m.dty (dotOf 2 m)) s)

/-- R130: four products. -/
def execDot4 (h : Head) (m : ModB) (s : State) : Out :=
  s.issue .dot4 h (.b m) (fun x s => .write (x.map m.dty (dotOf 4 m)) s)

/-- R130: eight products. -/
def execDot8 (h : Head) (m : ModB) (s : State) : Out :=
  s.issue .dot8 h (.b m) (fun x s => .write (x.map m.dty (dotOf 8 m)) s)

/-- The image words of a block (R131). -/
def Ty.imageWords (t : Ty) : Nat := (t.blockBytes + 3) / 4

/-- Is operand A of an executing lane of a lane group poisoned (R385)? -/
def Iss.groupMarked (x : Iss) (g lane : Nat) : Bool :=
  x.lanes.any (fun j => j / g == lane / g && x.f.b.poisoned x.e.a x.h.a j)

/-- `packb`: the word of the group's block image that a lane receives (R131). -/
def packbOf (m : ModB) (x : Iss) (lane : Nat) : Nat :=
  let g := m.dty.blockLen
  let xs := (List.range g).map (fun i =>
    let j := lane / g * g + i
    if x.lanes.contains j then Ty.f32.decode (x.val x.h.a .f32 j) else Ext.fin false 0 0)
  let img := buildBlock m.dty m.rnd m.sat xs
  if lane % g < Ty.imageWords m.dty then img / 2 ^ (32 * (lane % g)) % 2 ^ 32 else 0

/-- R131: blocks built across lane groups. -/
def execPackb (h : Head) (m : ModB) (s : State) : Out :=
  s.issue .packb h (.b m) (fun x s =>
    .write (x.each (fun i => x.out .n32 i (packbOf m x i) (x.groupMarked m.dty.blockLen i))) s)

/-- `unpackb`: the FP32 value of a lane's element of the group's block (R132). An immediate image word is IMM sign-extended to 32 bits, the
same in every lane that executes (log entry 148). -/
def unpackbOf (m : ModB) (x : Iss) (lane : Nat) : Nat :=
  let g := m.sty.blockLen
  let ws := (List.range (Ty.imageWords m.sty)).map (fun i =>
    let j := lane / g * g + i
    if x.lanes.contains j then x.val x.h.a .n32 j else 0)
  Ty.f32.round .rne false (blockElem m.sty (packCodes 32 ws) (lane % g))

/-- R132: block images decoded across lanes. -/
def execUnpackb (h : Head) (m : ModB) (s : State) : Out :=
  s.issue .unpackb h (.b m) (fun x s =>
    .write (x.each (fun i => x.out .n32 i (unpackbOf m x i) (x.groupMarked m.sty.blockLen i))) s)

end Sys2Proof.Machine
end

