-- ==== Sys2Proof/Machine/Lane.lean ====
section
/-!
DEFINITION. Group 0x4: lane instructions (R264 to R273). They read any lane's operand register as it stands at issue, and
write executing threads only (R265).
-/
namespace Sys2Proof.Machine

/-- The tile width of the issuing path (R244). -/
def Iss.tileWidth (x : Iss) : Nat := x.f.p.part.toNat % 64

/-- The executing threads of a lane's tile, in ascending order (R244, R264). -/
def Iss.tile (x : Iss) (lane : Nat) : List Nat := x.lanes.filter (fun j => j / x.tileWidth == lane / x.tileWidth)

/-- Is operand A poisoned in a lane? -/
def Iss.aMarked (x : Iss) (lane : Nat) : Bool := x.f.b.poisoned x.e.a x.h.a lane

/-- Is an operand of the lane's tile poisoned (R385)? -/
def Iss.tileMarked (x : Iss) (lane : Nat) : Bool := (x.tile lane).any (fun j => x.marked j)

/-- The source lane of `shfl` (R266): 0 pick, 1 rot, 2 shift, 3 flip. -/
def shflFrom (mode w lane n : Nat) : Nat :=
  let j := lane % w
  let base := lane - j
  match mode with
  | 0 => base + n % w
  | 1 => base + (j + n) % w
  | 2 =>
    let k : Int := (j : Int) - Ty.i32.val n
    if 0 ≤ k ∧ k < w then base + k.toNat else lane
  | _ => base + (j ^^^ (n % w))

/-- R266: the value of another lane of the tile. -/
def execShfl (h : Head) (m : ModA) (s : State) : Out :=
  s.issue .shfl h (.a m) (fun x s =>
    .write (x.each (fun i =>
      let j := shflFrom m.sub.toNat x.tileWidth i (x.b32 i)
      x.out m.ty i (x.val h.a m.ty j) (x.aMarked j))) s)

/-- The threads that `vote` combines for a lane: its tile's executing threads, or the path's threads in uniform form (R267). -/
def Iss.voters (x : Iss) (lane : Nat) : List Nat := if x.h.uni then lanesOf x.f.p.mask else x.tile lane

/-- The result of `vote` over threads: a truth value for modes 0 to 2, a number for 3 and 4 (R267). -/
def voteOf (mode : Nat) (e : List Nat) (v : Nat → Nat) : Nat :=
  match mode with
  | 0 => (e.all (fun j => v j == 1)).toNat
  | 1 => (e.any (fun j => v j == 1)).toNat
  | 2 => (e.all (fun j => e.all (fun k => v j == v k))).toNat
  | 3 => e.foldl (fun acc j => if v j = 1 then acc + 2 ^ j else acc) 0
  | _ => (e.filter (fun j => v j == 1)).length

/-- R267: a predicate or value combined over threads. -/
def execVote (h : Head) (m : ModA) (s : State) : Out :=
  s.issue .vote h (.a m) (fun x s =>
    .write (x.each (fun i =>
      let e := x.voters i
      let r := voteOf m.sub.toNat e (x.val h.a m.ty)
      let pz := e.any x.aMarked
      if m.sub.toNat < 3 then x.outPred i (r == 1) pz else x.out .n32 i r pz)) s)

/-- The reduction of patterns of a type (R268): 0 add, 1 min, 2 max, 3 and, 4 or, 5 xor. -/
def reduceOf (t : Ty) (sat : Bool) (k : Nat) (vs : List Nat) : Nat :=
  match vs with
  | [] => 0
  | v :: rest =>
    if t.isFloat then
      match k with
      | 0 => t.round .rne sat (Ext.sum false (vs.map t.decode))
      | _ =>
        if vs.all (fun c => (t.decode c).isNan) then t.nanCode
        else rest.foldl (fpick t (k == 2) true) v
    else
      match k with
      | 0 => t.fit sat (vs.foldl (fun acc c => acc + t.val c) (0 : Int))
      | 1 => t.wrap (rest.foldl (fun acc c => min acc (t.val c)) (t.val v))
      | 2 => t.wrap (rest.foldl (fun acc c => max acc (t.val c)) (t.val v))
      | _ => rest.foldl (logic (k - 3)) v

/-- R268: the reduction over the executing threads of the tile. -/
def execRedLane (h : Head) (m : ModA) (s : State) : Out :=
  s.issue .redLane h (.a m) (fun x s =>
    .write (x.each (fun i =>
      x.out m.ty i (reduceOf m.ty m.sat m.sub.toNat ((x.tile i).map (x.val h.a m.ty))) (x.tileMarked i))) s)

/-- R268: the reduction over the tile's executing threads up to the lane. -/
def execScan (h : Head) (m : ModA) (s : State) : Out :=
  s.issue .scan h (.a m) (fun x s =>
    .write (x.each (fun i =>
      let e := (x.tile i).filter (fun j => decide (j ≤ i))
      x.out m.ty i (reduceOf m.ty m.sat m.sub.toNat (e.map (x.val h.a m.ty))) (e.any x.aMarked))) s)

/-- A legal PART value (R244). -/
def partOk (v : Nat) : Bool := [1, 2, 4, 8, 16, 32].contains v

/-- R269: PART of the issuing path. -/
def execPart (h : Head) (m : ModA) (s : State) : Out :=
  s.issue .part h (.a m) (fun x s =>
    if x.lanes.isEmpty then .sent s
    else
      let v := x.val h.a .n32 0 % 2 ^ 32
      if partOk v then
        .sent (s.updBeam x.f.core x.f.slot (fun b =>
          { b with flow := b.flow.setRun (fun p => { p with part := BitVec.ofNat 32 v }) }))
      else .trap { cause := 0x01, reason := 0x04 })

/-- R270: one executing thread of each tile, by rank. -/
def execLead (h : Head) (m : ModA) (s : State) : Out :=
  s.issue .lead h (.a m) (fun x s =>
    .write (x.each (fun i => x.outPred i ((x.tile i)[x.val h.a .n32 i % 32]? == some i) false)) s)

/-- The row and place of item t among row lengths in lane order (R271). -/
def rebalOf (t : Nat) : List (Nat × Nat) → Nat → Nat × Nat
  | [], p => (0xFFFF_FFFF, (t - p) % 2 ^ 32)
  | (lane, len) :: rest, p => if p ≤ t ∧ t < p + len then (lane, t - p) else rebalOf t rest (p + len)

/-- R271: item indices mapped to rows across a tile. -/
def execRebal (h : Head) (m : ModA) (s : State) : Out :=
  s.issue .rebal h (.a m) (fun x s =>
    .write (x.each (fun i =>
      let r := rebalOf (x.b32 i) ((x.tile i).map (fun j => (j, x.val h.a .n32 j % 2 ^ 32))) 0
      let pz := x.tileMarked i
      x.outWords i [{ val := BitVec.ofNat 32 r.1, pz := pz }, { val := BitVec.ofNat 32 r.2, pz := pz }])) s)

/-! ### topk (R272, R273) -/

/-- The ranking of logits: numbers before NaNs, the largest first, ties by index (R272). -/
def topkRank (xs : List Ext) : List Nat :=
  let v (i : Nat) : Ext := (xs[i]?).getD .nan
  sortBy (fun i j => (!(v i).isNan && (v j).isNan) || Ext.lt (v j) (v i)) (List.range xs.length)

/-- The ends of e^d for d ≤ 0 in units of 2^-w; below e^-256 only the bounds 0 and 1 are kept. -/
def expEnds (w : Nat) (d : Ext) : Nat × Nat :=
  if d.isZero then (2 ^ w, 2 ^ w)
  else
    match d with
    | .fin _ _ _ =>
      if d.tiny 8 then
        let c := expEnc d w
        let sh := (-(w : Int) - c.exp).toNat
        (((c.mid - c.err) / (2 ^ sh : Int)).toNat, ((c.mid + c.err) / (2 ^ sh : Int)).toNat + 1)
      else (0, 1)
    | _ => (0, 0)

/-- e^d over the sum of e^d', rounded to FP32 where both ends of the quotient round alike (R273); 0 where no precision that is tried has
them so (log entry 20). -/
def softmaxOf (d : Ext) (ds : List Ext) : List Nat → Nat
  | [] => 0
  | w :: ws =>
    let n := expEnds w d
    let z := ds.foldl (fun acc e => let p := expEnds w e; (acc.1 + p.1, acc.2 + p.2)) (0, 0)
    let a := Ty.f32.roundQuot .rne false false n.1 0 z.2 0
    let b := Ty.f32.roundQuot .rne false false n.2 0 (max z.1 1) 0
    if a = b then a else softmaxOf d ds ws

/-- The weights of the chosen logits (R273). -/
def topkWeights (sel : List Ext) : List Nat :=
  let one (n : Nat) : Nat := Ty.f32.roundQuot .rne false false 1 0 n 0
  let infs := (sel.filter (· == .inf false)).length
  let nums := sel.filter (fun v => !v.isNan)
  let top : Option Ext := nums.find? (fun v => match v with | .fin _ _ _ => true | _ => false)
  sel.map (fun v =>
    if infs ≠ 0 then (if v == .inf false then one infs else 0)
    else if v.isNan then 0
    else
      match top with
      | none => one nums.length
      | some t =>
        let diff (y : Ext) : Ext := match y with | .inf _ => .inf true | y => Ext.sum false [y, t.neg]
        match v with
        | .inf _ => 0
        | v => softmaxOf (diff v) (nums.map diff) [120, 240, 480, 960])

/-- The index and weight words that `topk` gives a lane. -/
def topkWords (b : Beam) (va lane l k : Nat) : List Nat :=
  let xs := (List.range l).map (fun i => Ty.f32.decode (b.vreg lane (va + i)).val.toNat)
  let idx := (topkRank xs).take k
  let ws := topkWeights (idx.map (fun i => (xs[i]?).getD .nan))
  ((idx.zip ws).map (fun p => [p.1, p.2])).flatten

/-- R272, R273: the k largest of L logits with their softmax weights. -/
def execTopk (h : Head) (m : ModA) (s : State) : Out :=
  s.issue .topk h (.a m) (fun x s =>
    .write (x.each (fun i =>
      match h.a with
      | .v n =>
        x.outWords i ((topkWords x.f.b n.toNat i (topkL h.imm) (topkK h.imm)).map (fun w =>
          { val := BitVec.ofNat 32 w, pz := x.tileMarked i }))
      | _ => {})) s)

end Sys2Proof.Machine
end

