-- ==== Sys2Proof/Machine/Scratch.lean ====
section
/-!
DEFINITION. The bytes of a scratchpad allocation and of global memory, with the marks of their granules (R177, R384, R385),
and the scratchpad-access fault (R156).
-/
namespace Sys2Proof.Machine

/-- The granules of `size` bytes that n bytes from an address touch. -/
def granules (size a n : Nat) : List Nat :=
  if n = 0 then [] else (List.range ((a + n - 1) / size - a / size + 1)).map (fun i => a / size + i)

/-- The marks after a write of n bytes: a poisoned write marks its granules, and a clean one clears those that it covers
whole (R384). -/
def marksAfter (size : Nat) (l : List Nat) (a n : Nat) (pz : Bool) : List Nat :=
  if pz then (granules size a n).foldl markIn l
  else l.filter (fun g => !(decide (a ≤ size * g) && decide (size * g + size ≤ a + n)))

/-! ### The scratchpad -/

/-- Does an access lie within the allocation (R177)? -/
def Team.within (t : Team) (off n : Nat) : Bool := decide (off + n ≤ t.decl.spad)

/-- Bytes of the allocation. -/
def Team.load (t : Team) (off n : Nat) : List Byte := Memory.readN t.spad off n

/-- Is a word that the bytes touch poisoned? -/
def Team.loadPz (t : Team) (off n : Nat) : Bool := (granules 8 off n).any t.spadPz.contains

/-- Bytes written to the allocation. -/
def Team.store (t : Team) (off : Nat) (bs : List Byte) (pz : Bool) : Team :=
  { t with spad := Memory.writeN t.spad off bs, spadPz := marksAfter 8 t.spadPz off bs.length pz }

/-- The scratchpad-access fault of an access of n bytes at an offset that must be a multiple of `align` (R156, R177). -/
def Team.fault (t : Team) (lane off n align : Nat) : Option Trap :=
  if off % align ≠ 0 then some { cause := 0x06, lane := lane, addr := BitVec.ofNat 64 off }
  else if t.within off n then none
  else some { cause := 0x06, lane := lane, addr := BitVec.ofNat 64 (max off t.decl.spad) }

/-! ### Global memory -/

/-- Bytes of physical memory. -/
def State.readBytes (s : State) (a n : Nat) : List Byte := Memory.readN s.mem a n

/-- An integer in physical memory (R9). -/
def State.readNat (s : State) (a n : Nat) : Nat := leNat (s.readBytes a n)

/-- Is a line that the bytes touch poisoned (R384)? -/
def State.linePoisoned (s : State) (a n : Nat) : Bool := (granules 64 a n).any s.linePz.contains

/-- Does an address lie behind a CXL port that has failed or left the secure state (R353, R392)? -/
def State.shut (s : State) (a : Nat) : Bool :=
  s.mgmt.devices.any (fun d => decide (d.2.1 ≤ a) && decide (a < d.2.1 + d.2.2 * 2 ^ 30) && s.mgmt.ports.look d.1 == some .failed)

/-- Does an address lie behind a CXL port that is out for re-calibration, so that accesses are held (R392)? -/
def State.portOut (s : State) (a : Nat) : Bool :=
  s.mgmt.devices.any (fun d => decide (d.2.1 ≤ a) && decide (a < d.2.1 + d.2.2 * 2 ^ 30) && s.mgmt.ports.look d.1 == some .calibrating)

/-- The state of the Ultra Ethernet ports that a peer entry permits to carry the traffic of a virtual device to another device (R348,
R392): open where one is; out where one will be again; failed where none is left. -/
def State.link (s : State) (v dev : Nat) : PortSt :=
  let p := ((s.vds.look v).bind (fun d => d.peers.look dev)).getD 0
  let sts := ((List.range 8).filter (fun i => p.getLsbD (32 + i))).map (fun i => s.mgmt.ports.getD (16 + i) .secure)
  if sts.contains .secure then .secure else if sts.contains .calibrating then .calibrating else .failed

/-- A line in which an uncorrectable error is found: its bytes become zero, and its poison bit is set (R383). -/
def State.loseLine (s : State) (line : Nat) : State :=
  { s with mem := Memory.writeN s.mem (64 * line) (List.replicate 64 0), linePz := markIn s.linePz line }

/-- The entry and the count of an event in a line, for a virtual device; `sub` says where the line was (R379, R383). -/
def State.noteLine (s : State) (v line sub : Nat) : State :=
  (s.pushErr v (errEntry 0x01 sub 0 1 nobody nobody 0 (64 * line))).updVd v (fun d => { d with poisoned := d.poisoned + 1 })

/-- An uncorrectable error found in a line of a virtual device: the event is entered once (R383). -/
def State.lineEvent (s : State) (v line sub : Nat) : State := (s.loseLine line).noteLine v line sub

/-- The virtual devices that hold a grant of the shared range of a line: the line becomes poisoned for each of them within it (R362). -/
def State.readersOf (s : State) (line : Nat) : List Nat :=
  (s.mgmt.shared.filter (fun e => decide (e.2.base ≤ 64 * line) && decide (64 * line + 64 ≤ e.2.base + e.2.gib * 2 ^ 30))).flatMap
    (fun e => e.2.grants.map (·.1))

/-- An uncorrectable error in a line that a virtual device reads: the event is entered for it, or for every reader of a shared range
(R362, R383; log entry 135). -/
def State.readEvent (s : State) (v line sub : Nat) : State :=
  match s.readersOf line with
  | [] => s.lineEvent v line sub
  | vs => vs.foldl (fun s v => s.noteLine v line sub) (s.loseLine line)

/-- Lines about to be read: one behind a port that is shut is uncorrectable (R353). -/
def State.found (s : State) (v a n : Nat) : State :=
  if s.shut a then (granules 64 a n).foldl (fun s g => if s.linePz.contains g then s else s.readEvent v g 4) s else s

/-- Many lines about to be read. -/
def State.foundAll (s : State) (v a n : Nat) : State :=
  if s.mgmt.ports.any (fun e => e.2 == .failed) then (granules 64 a n).foldl (fun s g => s.found v (64 * g) 64) s else s

/-- Bytes written to physical memory with their line's mark; a line whose wake bit is set is noted as written (R336). A write
through a port that is shut is refused (R353). -/
def State.storeBytes (s : State) (a : Nat) (bs : List Byte) (pz : Bool) : State :=
  let ls := granules 64 a bs.length
  if s.shut a then s else { s with
    mem := Memory.writeN s.mem a bs
    linePz := marksAfter 64 s.linePz a bs.length pz
    wakeBits := s.wakeBits.map (fun e => if ls.contains e.1 then (e.1, (e.2.1, true)) else e) }

/-- An integer of n bytes written to physical memory. -/
def State.storeNat (s : State) (a n x : Nat) : State := s.storeBytes a (leBytes n x) false

end Sys2Proof.Machine
end

