-- ==== Sys2Proof/Machine/Spad.lean ====
section
/-!
DEFINITION. Group 0x5: scratchpad loads, stores and atomics (R177 to R179, R209 to R217), and what holds a memory
instruction at issue behind the accesses of its threads in flight (R198 to R201, R229).
-/
namespace Sys2Proof.Machine

/-! ### Order within threads -/

/-- Does an ordering acquire? -/
def Ordr.acquires (o : Ordr) : Bool := o == .acq || o == .ar

/-- Does an ordering release? -/
def Ordr.releases (o : Ordr) : Bool := o == .rel || o == .ar

/-- The accesses that release fences put before the marked writes of some threads (R199, R229). -/
def Beam.fences (b : Beam) (threads : List Nat) : List Nat := threads.flatMap (fun t => b.fenced.getD t [])

/-- Does a release fence of a thread still wait for an earlier access (R229)? -/
def State.fencePending (s : State) (x : Iss) : Bool :=
  s.gops.any (fun g => !g.settled && (x.f.b.fences x.threads).contains g.id)

/-- Is an acquire of some threads of the issuing beam in flight? -/
def State.acquiring (s : State) (x : Iss) (threads : List Nat) : Bool :=
  (s.undone x threads).any (fun g => Ordr.acquires g.ord)

/-- Does something hold a scratchpad access at issue: an acquire of its threads in flight; before a write, a release fence
or a copy or `ovl` whose reads are due; before a release, any earlier access of its threads (R198, R199, R229)? -/
def State.memHold (s : State) (x : Iss) (write rel : Bool) : Bool :=
  s.acquiring x x.threads || (write && (s.fencePending x || s.readsBefore x x.threads)) ||
    (rel && !(s.undone x x.threads).isEmpty)

/-! ### Loads and stores -/

/-- The scratchpad offset of an execution (R209). -/
def Iss.off (x : Iss) (i : Nat) : Nat := x.val x.h.a .n32 i % 2 ^ 32

/-- The registers that n bytes of the scratchpad fill (R210), each marked where its word is poisoned. -/
def Team.loadWords (t : Team) (off n : Nat) : List Cell32 :=
  (List.range ((n + 3) / 4)).map (fun k =>
    let w := min 4 (n - 4 * k)
    { val := BitVec.ofNat 32 (leNat (t.load (off + 4 * k) w)), pz := t.loadPz (off + 4 * k) w })

/-- The bytes that a thread still has of a granule of its team's allocation (R176, R200). -/
def State.olderSpad (s : State) (x : Iss) (i gran : Nat) : Option Older :=
  (s.core x.f.core).older.find? (fun e => e.spad && e.slot == x.f.slot && e.thread == x.thread i && e.gran == gran)

/-- The registers that n bytes fill in one execution of a relaxed load: of a granule that its thread still has as it was, those bytes (R176,
R197, R200). -/
def State.lateWords (s : State) (x : Iss) (i off n : Nat) : List Cell32 :=
  (x.f.t.loadWords off n).mapIdx (fun k w =>
    match s.olderSpad x i ((off + 4 * k) / 8) with
    | some e => { val := BitVec.ofNat 32 (leNat ((e.data.drop ((off + 4 * k) % 8)).take (min 4 (n - 4 * k)))), pz := e.pz }
    | none => w)

/-- After its accesses of n bytes a thread has none of those bytes as they were (R198). -/
def State.passSpad (s : State) (x : Iss) (n : Nat) : State :=
  s.giveUp x (fun e => e.spad && x.lanes.any (fun i => x.thread i == e.thread && (granules 8 (x.off i) n).contains e.gran))

/-- A move of the agenda: a thread has eight bytes of its team's allocation as they stand now. -/
def State.keepSpad (s : State) (core slot thread gran : Nat) : State :=
  match (s.beam? core slot).bind (s.teamOf core) with
  | none => s
  | some t =>
    let e : Older := {
      slot := slot, thread := thread, gran := gran, data := t.load (8 * gran) 8, pz := t.loadPz (8 * gran) 8, spad := true }
    s.updCore core (fun c => { c with
      older := c.older.filter (fun o => !(o.spad && o.slot == slot && o.thread == thread && o.gran == gran)) ++ [e] })

/-- Registers stored as n bytes, in pieces of a poison granule (R210, R385). -/
def Team.storeWords (t : Team) (off n : Nat) (ws : List Cell32) : Team :=
  let bs := (ws.map (fun w => leBytes 4 w.val.toNat)).flatten.take n
  (List.range ((n + 7) / 8)).foldl (fun t k =>
    t.store (off + 8 * k) ((bs.drop (8 * k)).take 8) (((ws.drop (2 * k)).take 2).any (·.pz))) t

/-- A scratchpad instruction: nothing where no thread executes; held; the fault of the lowest failing lane (R177); or its
effect. -/
def State.spadOp (s : State) (x : Iss) (n : Nat) (write rel : Bool) (go : State → Res) : Res :=
  if x.lanes.isEmpty then .sent s
  else if s.memHold x write rel then .hold
  else match x.lanes.findSome? (fun i => x.f.t.fault i (x.off i) n n) with
    | some t => .trap t
    | none => go s

/-- The registers of D in an execution, for n bytes. -/
def Iss.dWords (x : Iss) (i n : Nat) : List Cell32 := (List.range ((n + 3) / 4)).map (fun k => x.f.b.reg x.h.d i k)

/-- A load from the scratchpad: a relaxed one may return bytes that its thread still has as they were, and after one that acquires the core
relies on no such bytes (R176, R199, R200). -/
def spadLoad (op : Op) (h : Head) (m : ModM) (s : State) : Out :=
  s.issue op h (.m m) (fun x s =>
    s.spadOp x m.bytes false false (fun s =>
      if Ordr.acquires m.ord then .send (x.each (fun i => x.outWords i (x.f.t.loadWords (x.off i) m.bytes))) (s.seeNow x.f.core)
      else .send (x.each (fun i => x.outWords i (s.lateWords x i (x.off i) m.bytes))) (s.passSpad x m.bytes)))

/-- A store to the scratchpad, lane by lane (R179). -/
def spadStore (op : Op) (h : Head) (m : ModM) (s : State) : Out :=
  s.issue op h (.m m) (fun x s =>
    s.spadOp x m.bytes true (Ordr.releases m.ord) (fun s =>
      .sent ((s.passSpad x m.bytes).updTeam x.f.core x.f.b.resp (fun t =>
        x.lanes.foldl (fun t i => t.storeWords (x.off i) m.bytes (x.dWords i m.bytes)) t))))

/-- R214: per-thread load. -/
def execLd (h : Head) (m : ModM) (s : State) : Out := spadLoad .ld h m s

/-- R214: per-thread store. -/
def execSt (h : Head) (m : ModM) (s : State) : Out := spadStore .st h m s

/-- R214: one load for the path. -/
def execLds (h : Head) (m : ModM) (s : State) : Out := spadLoad .lds h m s

/-- R214: one store for the path. -/
def execSts (h : Head) (m : ModM) (s : State) : Out := spadStore .sts h m s

/-! ### Atomics (R215 to R217) -/

/-- `fmin` and `fmax` of the atomics: a NaN operand leaves the old value, and equal values do too. -/
def atomPick (t : Ty) (mx : Bool) (old b : Nat) : Nat :=
  let o := t.decode old
  let v := t.decode b
  if v.isNan then old
  else if o.isNan then b
  else if (if mx then Ext.lt o v else Ext.lt v o) then b else old

/-- The new value of an atomic (R216). -/
def atomNew (t : Ty) (op : AtomOp) (old b c : Nat) : Nat :=
  match op with
  | .add => if t.isInt then (old + b) % 2 ^ t.width else t.round .rne false (Ext.add .rne (t.decode old) (t.decode b))
  | .min => if t.val b < t.val old then b else old
  | .max => if t.val old < t.val b then b else old
  | .and => old &&& b
  | .or => old ||| b
  | .xor => old ^^^ b
  | .swap => b
  | .cswap => if old = c then b else old
  | .fmin => atomPick t false old b
  | .fmax => atomPick t true old b

/-- One lane's read-modify-write on the scratchpad: the old value, and the allocation. -/
def Team.rmw (t : Team) (ty : Ty) (op : AtomOp) (off b c : Nat) : Nat × Team :=
  let n := ty.width / 8
  let old := leNat (t.load off n)
  (old, t.store off (leBytes n (atomNew ty op old b c)) false)

/-- The lanes of an atomic applied in ascending order: the old values and the allocation (R217). -/
def Iss.rmwAll (x : Iss) (m : ModMA) (t : Team) : List (Nat × Nat) × Team :=
  x.lanes.foldl (fun acc i =>
    let b := x.val x.h.b m.ty i % 2 ^ m.ty.width
    let c := x.val x.h.c m.ty i % 2 ^ m.ty.width
    let r := acc.2.rmw m.ty m.op (x.off i) b c
    (acc.1 ++ [(i, r.1)], r.2)) ([], t)

/-- The failure of a lane's scratchpad atomic: R177, then a poisoned word (R218). -/
def Iss.atomFault (x : Iss) (n i : Nat) : Option Trap :=
  match x.f.t.fault i (x.off i) n n with
  | some t => some t
  | none =>
    if x.f.t.loadPz (x.off i) n then some { cause := 0x0A, lane := i, addr := BitVec.ofNat 64 (x.off i / 8 * 8) } else none

/-- A scratchpad atomic. -/
def spadAtomic (op : Op) (h : Head) (m : ModMA) (ret : Bool) (s : State) : Out :=
  s.issue op h (.ma m) (fun x s =>
    if x.lanes.isEmpty then .sent s
    else if s.memHold x true false then .hold
    else match x.lanes.findSome? (x.atomFault (m.ty.width / 8)) with
      | some t => .trap t
      | none =>
        let r := x.rmwAll m x.f.t
        let s := (s.passSpad x (m.ty.width / 8)).updTeam x.f.core x.f.b.resp (fun t => (x.rmwAll m t).2)
        if ret then .send (RegOut.all (r.1.map (fun e => x.out m.ty e.1 e.2 false))) s else .sent s)

/-- R216: read-modify-write that returns the old value. -/
def execAtoms (h : Head) (m : ModMA) (s : State) : Out := spadAtomic .atoms h m true s

/-- R216: read-modify-write that returns nothing. -/
def execReds (h : Head) (m : ModMA) (s : State) : Out := spadAtomic .reds h m false s

end Sys2Proof.Machine
end

