-- ==== Sys2Proof/Machine/Trans.lean ====
section
/-!
DEFINITION. Translation and protection: the places a virtual device may reach (R342), page tables and walks (R344 to R346),
the translation caches (R192, R193) and the rights of a leaf (R347, R348).
-/
namespace Sys2Proof.Machine

/-! ### Places (R342) -/

/-- Does a range of addresses lie within n bytes from a base? -/
def inside (a n base len : Nat) : Bool := decide (base ≤ a) && decide (a + n ≤ base + len)

/-- Do n bytes lie in resident segments of the virtual device? -/
def VDev.inSegments (d : VDev) (a n : Nat) : Bool :=
  n != 0 && (List.range ((a + n - 1) / 2 ^ 30 - a / 2 ^ 30 + 1)).all (fun i => d.segments.contains (a / 2 ^ 30 + i))

/-- Do n bytes lie in a shared range of which a virtual device holds a grant (R362)? -/
def State.granted (s : State) (v a n : Nat) : Bool :=
  s.mgmt.shared.any (fun e => inside a n e.2.base (e.2.gib * 2 ^ 30) && (e.2.grants.look v).isSome)

/-- Is the revocation of a grant still to complete? -/
def State.revoking (s : State) (v i : Nat) : Bool := s.mgmt.invals.any (fun j => j.vd == v && j.range == some i)

/-- The grant under which a virtual device reaches n bytes of a shared range: may it write (R362)? One that is being revoked serves only
the accesses that are in flight (log entry 83). -/
def State.grant (s : State) (v a n : Nat) : Option Bool :=
  s.mgmt.shared.findSome? (fun e =>
    if inside a n e.2.base (e.2.gib * 2 ^ 30) && !s.revoking v e.1 then e.2.grants.look v else none)

/-- Do n bytes lie in one of the places of R342? -/
def State.placeOk (s : State) (v : Nat) (d : VDev) (a n : Nat) : Bool :=
  d.inSegments a n || inside a n (v * 2 ^ 21) (2 ^ 21) || d.pools.any (fun r => inside a n r.1 r.2) || (s.grant v a n).isSome

/-! ### Walks (R344 to R346) -/

/-- The levels of a walk: the lowest address bit of the index, its width, and log2 of the next table's size. -/
def walkLevels : List (Nat × Nat × Nat) := [(43, 13, 16), (30, 13, 12), (21, 9, 8), (16, 5, 0)]

/-- ADDR of an entry, as a physical address. -/
def entryAddr (e : Nat) : Nat := bitsOf e 8 40 * 256

/-- Are the fields of an entry that must be zero zero (R345)? -/
def entryFields (e : Nat) : Bool :=
  bitsOf e 48 11 == 0 && bitsOf e 6 2 == 0 &&
    (if bitsOf e 1 1 = 1 then bitsOf e 59 5 == 0 || bitsOf e 8 40 == 0 else bitsOf e 59 5 == 0 && bitsOf e 2 4 == 0)

/-- A walk from a table at a level: log2 of the page size and the leaf, or none for a fault (R346), as a poisoned entry is one (log entry
47). -/
def walkFrom (s : State) (v : Nat) (d : VDev) (va : Nat) : List (Nat × Nat × Nat) → Nat → Option (Nat × Nat)
  | [], _ => none
  | (lo, n, next) :: rest, t =>
    let e := s.readNat (t + 8 * bitsOf va lo n) 8
    if bitsOf e 0 1 = 0 || !entryFields e || s.linePoisoned (t + 8 * bitsOf va lo n) 8 then none
    else if bitsOf e 1 1 = 0 then
      if rest.isEmpty || entryAddr e % 2 ^ next != 0 || !d.inSegments (entryAddr e) (2 ^ next) then none
      else walkFrom s v d va rest (entryAddr e)
    else if lo = 43 || entryAddr e % 2 ^ lo != 0 then none
    else if bitsOf e 59 5 == 0 && !s.placeOk v d (entryAddr e) (2 ^ lo) then none
    else some (lo, e)

/-- A page walk (R344, R346). -/
def State.walk (s : State) (v va : Nat) : Option (Nat × Nat) :=
  match s.vds.look v with
  | some d => if d.ptroot = 0 then none else walkFrom s v d va walkLevels d.ptroot
  | none => none

/-! ### Translation caches (R192, R193) -/

/-- The cached translation of an address. -/
def cached (l : List Trans) (v va : Nat) : Option Trans :=
  l.find? (fun t => t.vd == v && va / 2 ^ t.log == t.page / 2 ^ t.log)

/-- A translation kept in a cache of n entries, the oldest given up. -/
def keep (l : List Trans) (n : Nat) (t : Trans) : List Trans := (l ++ [t]).drop (l.length + 1 - n)

/-- A translation kept in the core's cache. -/
def State.keepCore (s : State) (core : Nat) (t : Trans) : State := s.updCore core (fun c => { c with tlb := keep c.tlb 64 t })

/-- A translation kept in the die's unit. -/
def State.keepDie (s : State) (die : Nat) (t : Trans) : State :=
  { s with dtu := s.dtu.put die (keep (s.dtu.getD die []) 16384 t) }

/-- The translation that the caches hold for an address, moved up to the core's. -/
def State.lookup (s : State) (core v va : Nat) : Option Trans × State :=
  match cached (s.core core).tlb v va with
  | some t => (some t, s)
  | none =>
    match cached (s.dtu.getD (dieOf core) []) v va with
    | some t => (some t, s.keepCore core t)
    | none => (none, s)

/-- Does a page meet a range that is being invalidated, so that its translation is not cached (R349)? -/
def State.barred (s : State) (v page log : Nat) : Bool :=
  s.mgmt.invals.any (fun i => i.vd == v && decide (i.first < page + 2 ^ log) && decide (page < i.first + i.len))

/-- Are the translation caches of a virtual device off: its collapse has invalidated them, and it has not begun to wake (R334, R335)? -/
def State.uncached (s : State) (v : Nat) : Bool :=
  (s.vds.look v).any (fun d => (d.power == .collapsing || d.power == .collapsed) && decide (2 ≤ d.stage))

/-! ### Rights (R347, R348, R362) -/

/-- The rights an access needs. -/
structure Rights where
  r : Bool := false
  w : Bool := false
  a : Bool := false
  h : Bool := false

/-- Where an access goes: physical memory, another device, or nowhere, with the code of R188. -/
inductive Place where
  | here (pa : Nat)
  | peer (dev : Nat)
  | fail (code : Nat)
  deriving DecidableEq, Repr

/-- What a leaf says of an access to n bytes at an address (R342, R347, R348, R362). -/
def State.place (s : State) (v : Nat) (t : Trans) (va n : Nat) (need : Rights) : Place :=
  let e := t.leaf.toNat
  let dev := bitsOf e 59 5
  let pa := entryAddr e + va % 2 ^ t.log
  let ok : Bool := (!need.r || bitsOf e 2 1 == 1) && (!need.w || bitsOf e 3 1 == 1) && (!need.a || bitsOf e 4 1 == 1) &&
    (!need.h || bitsOf e 5 1 == 1)
  match s.vds.look v with
  | none => .fail 1
  | some d =>
    if dev ≠ 0 then
      let p := (d.peers.getD dev 0).toNat
      if bitsOf p 0 1 = 0 || bitsOf p 32 8 == 0 then .fail 1
      else if ok then .peer dev else .fail 2
    else if !ok || !s.placeOk v d pa n then .fail 2
    else match s.grant v pa n with
      | some w => if need.w && !w then .fail 2 else .here pa
      | none => .here pa

/-- An access resolved by the translations at hand, or none where a walk has to come first (R192, R193). `missed` lists the 64 KiB pages
whose walk has ended in a fault. -/
def State.resolveHeld (s : State) (core v va n : Nat) (need : Rights) (missed : List Nat) : Option Place × State :=
  if 2 ^ 56 ≤ va then (some (.fail 1), s)
  else match s.lookup core v va with
    | (some t, s) => (some (s.place v t va n need), s)
    | (none, s) => (if missed.contains (va / 2 ^ 16) then some (.fail 1) else none, s)

/-- The page of an address that a walk is for: its number and log2 of its size; a walk that will end in a fault is for 64 KiB. -/
def State.walkPage (s : State) (v va : Nat) : Nat × Nat :=
  match s.walk v va with
  | some (log, _) => (va / 2 ^ log, log)
  | none => (va / 2 ^ 16, 16)

/-- A walk joined or begun for an address: at most one is in flight for each page of a virtual device (R193). `beams` hold for it. -/
def State.wantWalk (s : State) (core v va : Nat) (beams : List (BeamRef × Nat)) : State :=
  let die := dieOf core
  let (page, log) := s.walkPage v va
  let same (w : Walk) : Bool := w.vd == v && w.die == die && w.page == va / 2 ^ w.log
  if s.walks.any same then
    { s with walks := s.walks.map (fun w =>
        if same w then { w with beams := w.beams ++ beams.filter (fun b => !w.beams.contains b) } else w) }
  else
    let (id, s) := s.name
    { s with walks := s.walks ++ [{ id := id, vd := v, die := die, va := va, page := page, log := log, beams := beams }] }

/-- Is a walk one of the 512 that its die runs, rather than queued behind them (R193)? -/
def State.walkRuns (s : State) (w : Walk) : Bool :=
  ((s.walks.filter (fun u => u.die == w.die)).take 512).any (·.id == w.id)

/-- Would poison written to the bytes leave the virtual device (R386)? -/
def State.leaks (s : State) (v : Nat) (p : Place) (n : Nat) : Bool :=
  match p with
  | .here pa => s.granted v pa n
  | .peer _ => true
  | .fail _ => false

end Sys2Proof.Machine
end

