-- ==== Sys2Proof/Machine/Global.lean ====
section
/-!
DEFINITION. Group 0x6: global loads, stores and atomics, shape variables and copies (R180 to R189, R209, R215 to R227); what
performs an access at its home die (R185, R245), and what ends a copy (R189).
-/
namespace Sys2Proof.Machine

/-! ### Accesses to global memory -/

/-- The global address of an execution of `lda` or `str` (R209): A plus B sign-extended. -/
def Iss.gAddr (x : Iss) (i : Nat) : Nat :=
  let b : Int := match x.h.b with | .none => 0 | o => Ty.i32.val (x.val o .n32 i)
  (((x.val x.h.a .n64 i : Int) + b) % (2 ^ 64 : Int)).toNat

/-- The global address of an atomic (R209). -/
def Iss.aAddr (x : Iss) (i : Nat) : Nat := x.val x.h.a .n64 i

/-- One lane of an access to make: its lane, address, data, compare value and mark. -/
structure Want where
  lane : Nat
  va   : Nat
  val  : Nat := 0
  cmp  : Nat := 0
  pz   : Bool := false

/-- What the lanes of an access say at issue: where they go, or the trap of one, or that one waits for a page walk. -/
inductive Lanes (α : Type) where
  | ok (l : α)
  | trap (t : Trap)
  | walk

/-- A lane's access resolved, or its trap: alignment, translation, protection, poisoned line (R194, R218, R220, R386). A page whose
translation is not at hand is walked first (R193). At a poisoned line too %taddr is the lane's address (log entry 140). -/
def State.gLane (s : State) (x : Iss) (n : Nat) (need : Rights) (atomic : Bool) (w : Want) : Lanes LaneAcc × State :=
  let bad (cause addr : Nat) : Lanes LaneAcc :=
    .trap { cause := cause, lane := if x.h.uni then 0 else w.lane, addr := BitVec.ofNat 64 addr }
  let acc (pa dev : Nat) : LaneAcc :=
    { lane := x.thread w.lane, va := w.va, pa := pa, dev := dev, val := BitVec.ofNat 64 w.val, cmp := BitVec.ofNat 64 w.cmp
      pz := w.pz }
  if w.va % n ≠ 0 then (bad 0x09 w.va, s)
  else
    match s.resolveHeld x.f.core x.f.t.vd w.va n need x.f.b.missed with
    | (none, s) => (.walk, s.wantWalk x.f.core x.f.t.vd w.va [(x.ref, w.va)])
    | (some (.fail 1), s) => (bad 0x07 w.va, s)
    | (some (.fail _), s) => (bad 0x08 w.va, s)
    | (some (.here pa), s) =>
      let s := if atomic then s.found x.f.t.vd pa n else s
      if w.pz && s.leaks x.f.t.vd (.here pa) n then (bad 0x08 w.va, s)
      else if atomic && s.linePoisoned pa n then (bad 0x0A w.va, s)
      else (.ok (acc pa 0), s)
    | (some (.peer dev), s) => if w.pz then (bad 0x08 w.va, s) else (.ok (acc w.va dev), s)

/-- The lanes of an access resolved in ascending order, up to the lowest that fails or waits for a walk. -/
def State.gLanes (s : State) (x : Iss) (n : Nat) (need : Rights) (atomic : Bool) : List Want → Lanes (List LaneAcc) × State
  | [] => (.ok [], s)
  | w :: ws =>
    match s.gLane x n need atomic w with
    | (.trap t, s) => (.trap t, s)
    | (.walk, s) => (.walk, s)
    | (.ok a, s) =>
      match State.gLanes s x n need atomic ws with
      | (.ok l, s) => (.ok (a :: l), s)
      | r => r

/-- Do two lanes' accesses touch a byte in common? -/
def LaneAcc.meets (n m : Nat) (a b : LaneAcc) : Bool := a.dev == b.dev && decide (a.pa < b.pa + m) && decide (b.pa < a.pa + n)

/-- Do two lanes' accesses keep their program order: one thread, and the same bytes here or the same other device (R198,
R205)? -/
def LaneAcc.ordered (n m : Nat) (a b : LaneAcc) : Bool :=
  a.lane == b.lane && (if a.dev = 0 then a.meets n m b else a.dev == b.dev)

/-- Must an access in flight be performed before one lane of a new one of m bytes: by its thread's program order, or, where a
uniform instruction has joined their threads, because they meet (R195, R198, R200, R205)? -/
def GOp.precedes (g : GOp) (b : Beam) (m : Nat) (l : LaneAcc) : Bool :=
  g.lanes.any (fun a => a.ordered g.size m l) || (b.joins l.lane g.id && g.lanes.any (fun a => a.meets g.size m l))

/-- The other devices that a row writes to, as far as it has been translated, and whether it may yet reach others. -/
def Row.devices (r : Row) : List Nat × Bool :=
  match r.st with
  | .ready ps => ((ps.map (·.dev)).filter (· != 0), false)
  | .walking _ ps _ => ((ps.map (·.dev)).filter (· != 0), true)
  | .failed _ _ => ([], false)

/-- Does a copy out write to one of some devices for one of some threads (R205)? -/
def Copy.writesTo (c : Copy) (threads devs : List Nat) : Bool :=
  c.out && !devs.isEmpty && c.rows.any (fun r => threads.contains (c.threadOf r) && (r.devices.2 || r.devices.1.any devs.contains))

/-- What must be performed before a new access (R198, R205, R206, R229). -/
def State.before (s : State) (x : Iss) (n : Nat) (lanes : List LaneAcc) (ord : Ordr) (scope : Scope) (write : Bool) :
    List Nat :=
  let threads := lanes.map (·.lane)
  let mine := s.undone x threads
  let devs := (lanes.map (·.dev)).filter (· != 0)
  let sys : Bool := scope == .sys || !devs.isEmpty
  let own : List GOp :=
    if Ordr.releases ord then mine else mine.filter (fun g => lanes.any (g.precedes x.f.b n))
  let remote : List GOp :=
    if Ordr.releases ord && sys then s.gops.filter (fun g => g.beam.core == x.f.core && !g.acked) else []
  own.map (·.id) ++ remote.map (·.id) ++ (if write then x.f.b.fences threads else []) ++
    (s.copies.filter (fun c => c.beam == x.ref && c.writesTo threads devs)).map (·.id)

/-- Does a scope make a release narrow (R203)? -/
def Scope.narrow : Scope → Bool
  | .team | .cluster => true
  | _ => false

/-- The threads of a write that is a narrow release: by its own suffixes, or by a fence before it (R199, R203). -/
def Iss.narrowThreads (x : Iss) (lanes : List LaneAcc) (ord : Ordr) (scope : Scope) : List Nat :=
  (lanes.map (·.lane)).filter (fun t => (Ordr.releases ord && Scope.narrow scope) || x.f.b.narrow.contains t)

/-- An access put in flight, with the result that it fills. -/
def State.sendG (s : State) (x : Iss) (kind : GKind) (n : Nat) (lanes : List LaneAcc) (ord : Ordr) (scope : Scope) : State :=
  let write : Bool := match kind with | .load => false | _ => true
  let ret : Bool := match kind with | .load => true | .store => false | .rmw _ _ r => r
  let after := s.before x n lanes ord scope write
  let (gid, s) := s.name
  let (fid, s) := s.name
  let g : GOp := {
    id := gid, beam := x.ref, vd := x.f.t.vd, launch := x.f.t.launch, kind := kind, size := n, lanes := lanes, ord := ord
    scope := scope, after := after, done := !lanes.any (fun a => a.dev == 0), acked := lanes.all (fun a => a.dev == 0)
    got := [], dest := if ret then some fid else none, narrow := if write then x.narrowThreads lanes ord scope else []
    resp := x.f.b.resp, team := x.f.t.gen, counted := x.counted }
  let s := { s with gops := s.gops ++ [g] }
  if ret then
    (s.updBeam x.f.core x.f.slot (fun b => b.empty x.written)).addFill
      { id := fid, beam := x.ref, names := x.written, out := {}, prism := none, gop := some gid, reads := lanes.map (·.lane) }
  else s

/-- A global access at issue: held behind an acquire in flight, behind reads of copies and `ovl` instructions that come before it, or for a
page walk; trapped; or sent. -/
def State.gOp (s : State) (x : Iss) (kind : GKind) (n : Nat) (need : Rights) (ord : Ordr) (scope : Scope)
    (want : Nat → Want) : Res :=
  let atomic : Bool := match kind with | .rmw _ _ _ => true | _ => false
  if x.lanes.isEmpty then .sent s
  else if s.acquiring x x.threads || s.readsBefore x x.threads then .hold
  else
    match s.gLanes x n need atomic (x.lanes.map want) with
    | (.trap t, s) => .trapIn t s
    | (.walk, s) => .walk s
    | (.ok l, s) => .sent (s.sendG x kind n l ord scope)

/-- R220: a global load. `.promote` orders no more than a narrow release that has been performed already has (R203). -/
def execLda (h : Head) (m : ModG) (s : State) : Out :=
  s.issue .lda h (.g m) (fun x s =>
    s.gOp x .load (m.ty.width / 8) { r := true } m.ord m.scope (fun i => { lane := i, va := x.gAddr i }))

/-- R220: a global store. -/
def execStr (h : Head) (m : ModG) (s : State) : Out :=
  s.issue .str h (.g m) (fun x s =>
    s.gOp x .store (m.ty.width / 8) { w := true } m.ord m.scope (fun i =>
      { lane := i, va := x.gAddr i, val := x.val h.d (if m.ty.wide then .n64 else .n32) i, pz := x.f.b.poisoned x.e.d h.d i }))

/-- The lanes of an atomic whose value operands are poisoned, up to the lowest that would carry the poison out of the virtual device, which
takes the protection fault (R386). -/
def State.poisonOut (s : State) (x : Iss) (n : Nat) : List Nat → Lanes Unit × State
  | [] => (.ok (), s)
  | i :: is =>
    let va := x.aAddr i
    if va % n ≠ 0 then s.poisonOut x n is
    else match s.resolveHeld x.f.core x.f.t.vd va n { w := true, a := true } x.f.b.missed with
      | (none, s) => (.walk, s.wantWalk x.f.core x.f.t.vd va [(x.ref, va)])
      | (some p, s) =>
        if s.leaks x.f.t.vd p n then (.trap { cause := 0x08, lane := i, addr := BitVec.ofNat 64 va }, s) else s.poisonOut x n is

/-- A global atomic. With a poisoned value operand it takes the protection fault where the poison would leave the virtual device, and else
the poison trap (R385, R386; DEDUCED, log entry 176). -/
def globalAtomic (op : Op) (h : Head) (m : ModMA) (ret : Bool) (s : State) : Out :=
  s.issue op h (.ma m) (fun x s =>
    match x.poisonAt (fun _ _ => true) with
    | some t =>
      (match s.poisonOut x (m.ty.width / 8)
          (x.lanes.filter (fun i => x.f.b.poisoned x.e.b x.h.b i || x.f.b.poisoned x.e.c x.h.c i)) with
        | (.trap u, s) => .trapIn u s
        | (.walk, s) => .walk s
        | (.ok _, s) => .trapIn t s)
    | none =>
    s.gOp x (.rmw m.op m.ty ret) (m.ty.width / 8) { w := true, a := true } m.ord m.scope (fun i =>
      { lane := i, va := x.aAddr i, val := x.val h.b m.ty i % 2 ^ m.ty.width, cmp := x.val h.c m.ty i % 2 ^ m.ty.width }))

/-- R216: an atomic that returns the old value. -/
def execAtom (h : Head) (m : ModMA) (s : State) : Out := globalAtomic .atom h m true s

/-- R216: an atomic that returns nothing. -/
def execRedGlobal (h : Head) (m : ModMA) (s : State) : Out := globalAtomic .redGlobal h m false s

/-! ### Accesses performed (R185, R245) -/

/-- May an access be performed now? What comes before it has been performed, and no port that it goes through is out (R392). -/
def State.gReady (s : State) (g : GOp) : Bool :=
  g.after.all (fun i => !s.pending i) && g.lanes.all (fun a => a.dev != 0 || !s.portOut a.pa)

/-- One lane performed at its home die: what it returns, and memory after it (R216, R217). -/
def State.performLane (s : State) (kind : GKind) (n : Nat) (a : LaneAcc) : (Nat × DWord × Bool) × State :=
  let old := s.readNat a.pa n
  let pz := s.linePoisoned a.pa n
  let got : Nat × DWord × Bool := (a.lane, BitVec.ofNat 64 old, pz)
  match kind with
  | .load => (got, s)
  | .store => (got, s.storeBytes a.pa (leBytes n a.val.toNat) a.pz)
  | .rmw op ty _ => (got, s.storeBytes a.pa (leBytes n (atomNew ty op old a.val.toNat a.cmp.toNat)) false)

/-- The lanes of an access on this package performed, in ascending order. -/
def State.performLanes (s : State) (g : GOp) : List (Nat × DWord × Bool) × State :=
  (g.lanes.filter (fun a => a.dev == 0)).foldl (fun acc a =>
    let r := (if g.kind == .store then acc.2 else acc.2.found g.vd a.pa g.size).performLane g.kind g.size a
    (acc.1 ++ [r.1], r.2)) ([], s)

/-- The bytes that a thread's lane reads, as a relaxed load of the thread may still return them (R200). -/
def State.olderAt (s : State) (r : BeamRef) (a : LaneAcc) : Option Older :=
  if a.dev != 0 then none
  else (s.core r.core).older.find? (fun e => !e.spad && e.slot == r.slot && e.thread == a.lane && e.gran == a.pa / 8)

/-- The lanes of a relaxed load that return bytes as they were before: what each is returned (R200). -/
def State.lateLanes (s : State) (g : GOp) : List (Nat × DWord × Bool) :=
  g.lanes.filterMap (fun a =>
    (s.olderAt g.beam a).map (fun e => (a.lane, BitVec.ofNat 64 (leNat ((e.data.drop (a.pa % 8)).take g.size)), e.pz)))

/-- Does an access keep a thread of its beam from older bytes: it is the thread's own, or comes before what the thread does now, and
touches them or acquires (R198, R199, R200)? -/
def State.bars (s : State) (g : GOp) (e : Older) : Bool :=
  let joined : Bool := match s.ref? g.beam with | some b => b.joins e.thread g.id | none => false
  e.slot == g.beam.slot && g.lanes.any (fun a =>
    (a.lane == e.thread || joined) && (Ordr.acquires g.ord || (a.dev == 0 && !e.spad && a.pa / 8 == e.gran)))

/-- Older bytes given up that an access keeps its threads from. -/
def State.passOlder (s : State) (g : GOp) : State :=
  s.updCore g.beam.core (fun c => { c with older := c.older.filter (fun e => !s.bars g e) })

/-- A load performed: a relaxed one may return older bytes that its thread still has, and else what memory holds (R200). -/
def State.performLoad (s : State) (g : GOp) : List (Nat × DWord × Bool) × State :=
  let late := if Ordr.acquires g.ord then [] else s.lateLanes g
  let r := s.performLanes { g with lanes := g.lanes.filter (fun a => !late.any (fun e => e.1 == a.lane)) }
  (late ++ r.1, r.2.passOlder g)

/-- A move of the agenda: a thread has eight bytes as they stand now. -/
def State.keepOlder (s : State) (core slot thread gran : Nat) : State :=
  let e : Older := {
    slot := slot, thread := thread, gran := gran, data := s.readBytes (8 * gran) 8, pz := s.linePz.contains (gran / 8) }
  s.updCore core (fun c => { c with
    older := c.older.filter (fun o => !(!o.spad && o.slot == slot && o.thread == thread && o.gran == gran)) ++ [e] })

/-- The home die of an address (R183). -/
def homeDie (pa : Nat) : Nat := (bitsOf pa 12 3) ^^^ (bitsOf pa 15 3)

/-- The home dies record a narrow release for each line that it wrote (R183, R203). -/
def State.noteNarrow (s : State) (g : GOp) : State :=
  let who : Narrow := { core := g.beam.core, resp := g.resp, gen := g.team }
  (g.lanes.filter (fun a => a.dev == 0 && g.narrow.contains a.lane)).foldl (fun s a =>
    { s with narrow := s.narrow.put (homeDie a.pa) ((s.narrow.getD (homeDie a.pa) []).put (a.pa / 64) who) }) s

/-- An access changed. -/
def State.updG (s : State) (id : Nat) (f : GOp → GOp) : State :=
  { s with gops := s.gops.map (fun g => if g.id = id then f g else g) }

/-- An access that is over and fills nothing done with; no handler, and no barrier that its beam's end has left waiting, waits for it
any longer. -/
def State.settleG (s : State) (id : Nat) : State :=
  match s.gops.find? (·.id == id) with
  | some g =>
    if g.settled then
      let s := s.undrain g.beam id
      let s := if g.dest.isNone then { s with gops := s.gops.filter (·.id != id) } else s
      if (s.ref? g.beam).isNone then s.resettle g.beam.core else s
    else s
  | none => s

/-- An access of an instruction has read poison: the instruction is counted once (R387). -/
def State.readPoison (s : State) (g : GOp) (got : List (Nat × DWord × Bool)) : State :=
  if got.any (·.2.2) && !g.counted && g.kind != .store then s.countPoison g.vd g.launch else s

/-- R245: a write or read-modify-write performed at its home die. -/
def execGlobalWritePerformed (id : Nat) (s : State) : Out :=
  match s.gops.find? (·.id == id) with
  | some g =>
    if !g.done && g.kind != .load && s.gReady g then
      let r := s.performLanes g
      .next (((((r.2.readPoison g r.1).noteNarrow g).passOlder g).updG id (fun g => { g with done := true, got := g.got ++ r.1 })).settleG id)
    else .next s
  | none => .next s

/-- R206: another device acknowledges the lanes of an access that lie there. What they return is free data (R192), and after an acquire
its threads rely on no older bytes (R199, R200). -/
def execRemoteWriteAck (id : Nat) (_refused : Bool) (s : State) : Out :=
  match s.gops.find? (·.id == id) with
  | some g =>
    if !g.acked && s.gReady g && !g.lanes.any (fun a => a.dev != 0 && s.link g.vd a.dev == .calibrating) then
      let (k, s) := s.take
      let got := (g.lanes.filter (fun a => a.dev != 0)).map (fun a =>
        (a.lane, BitVec.ofNat 64 (leNat ((List.range g.size).map (fun j => Config.remoteByte k (8 * a.lane + j)))), false))
      .next (((s.passOlder g).updG id (fun g => { g with acked := true, got := g.got ++ got })).settleG id)
    else .next s
  | none => .next s

/-- Words put in the registers that a result in flight fills: v registers of a lane, or c registers, where c0 discards. -/
def Names.words (ns : Names) (lane : Nat) (ws : List Cell32) : RegOut :=
  if ns.v.isEmpty then { c := ns.c.zip (ws.drop (ws.length - ns.c.length)) }
  else { v := (ns.v.map (fun n => lane + 32 * n)).zip ws }

/-- What an access returned, as register values. -/
def GOp.out (g : GOp) (ns : Names) : RegOut :=
  RegOut.all (g.got.map (fun e =>
    ns.words (e.1 % 32) ({ val := BitVec.ofNat 32 e.2.1.toNat, pz := e.2.2 } ::
      (if g.size = 8 then [{ val := BitVec.ofNat 32 (e.2.1.toNat / 2 ^ 32), pz := e.2.2 }] else []))))

/-! ### Copies -/

/-- The parts of n bytes at an address that lie in one line each (R224). -/
def lineParts (a n : Nat) : List (Nat × Nat) :=
  (granules 64 a n).map (fun g => (max a (64 * g), min (a + n) (64 * g + 64) - max a (64 * g)))

/-- The pieces of n bytes of a row at a virtual address, here or on another device. A byte of another device is one free value for all the
lanes of a per-lane copy: they share the transfer that reads it (R181). -/
def State.pieces (s : State) (out : Bool) (r : Row) (dev addr va n : Nat) : List Piece :=
  (lineParts addr n).map (fun p =>
    let rel := va + (p.1 - addr) - r.va
    if out then
      { dev := dev, addr := p.1, data := (r.data.drop rel).take p.2, pz := (granules 8 (r.off + rel) p.2).any r.pz.contains }
    else if dev = 0 then { dev := 0, addr := p.1, data := s.readBytes p.1 p.2, pz := s.linePoisoned p.1 p.2 }
    else { dev := dev, addr := p.1, data := (List.range p.2).map (fun j => Config.remoteByte r.free (32 * (p.1 + j) + dev)), pz := false })

/-- A row's translation carried on from an address: page by page, until a page whose translation is not at hand (R192,
R224), and whether what it has read holds poison. `known` is the result of a walk that has just finished. -/
def State.rowGo (s : State) (core v : Nat) (out : Bool) (r : Row) (known : Option Trans) :
    Nat → Nat → List Piece → Option Nat → (RowSt × Bool) × State
  | 0, va, ps, bad => ((.walking va ps bad, ps.any (·.pz)), s)
  | k + 1, va, ps, bad =>
    if r.va + r.len ≤ va then ((match bad with | some b => .failed 2 b | none => .ready ps, ps.any (·.pz)), s)
    else if 2 ^ 56 ≤ va then ((.failed 1 va, ps.any (·.pz)), s)
    else
      let hit := match known.bind (fun t => cached [t] v va) with
        | some t => some t
        | none => (s.lookup core v va).1
      match hit with
      | none => ((.walking va ps bad, ps.any (·.pz)), s)
      | some t =>
        let n := min (r.va + r.len) (t.page + 2 ^ t.log) - va
        let p := s.place v t va n (if out then { w := true } else { r := true })
        let s := match p with | .here pa => if out then s else s.found v pa n | _ => s
        let next (dev addr : Nat) : (RowSt × Bool) × State :=
          let new := s.pieces out r dev addr va n
          let leak := new.find? (fun q => q.pz && out && s.leaks v p n)
          State.rowGo s core v out r known k (va + n) (ps ++ new)
            (bad.orElse (fun _ => leak.map (fun q => va + (q.addr - addr))))
        match p with
        | .here pa => next 0 pa
        | .peer dev => next dev va
        | .fail 1 => ((.failed 1 va, ps.any (·.pz)), s)
        | .fail _ => State.rowGo s core v out r known k (va + n) ps (bad.orElse (fun _ => some va))

/-- A row advanced, with the walk it now waits for. What it reads its core returns nothing older than from there on (R198). -/
def State.rowStep (s : State) (core v : Nat) (out : Bool) (known : Option Trans) (r : Row) : Row × State :=
  match r.st with
  | .walking va ps bad =>
    let a := s.rowGo core v out r known 40 va ps bad
    let a := (a.1, if out then a.2 else a.2.seeNow core)
    let r := { r with st := a.1.1, met := r.met || a.1.2 }
    match a.1.1 with
    | .walking va' _ _ => (r, a.2.wantWalk core v va' [])
    | _ => (r, a.2)
  | _ => (r, s)

/-- Rows advanced one by one. -/
def State.rowsStep (s : State) (core v : Nat) (out : Bool) (known : Option Trans) (rows : List Row) : List Row × State :=
  rows.foldl (fun acc r =>
    let a := acc.2.rowStep core v out known r
    (acc.1 ++ [a.1], a.2)) ([], s)

/-- The numbers of the free bytes that the rows of a copy read on other devices: the lanes of a per-lane copy share one (R181), and a bulk
copy takes one for each row. -/
def State.number (s : State) (kind : CopyKind) (rows : List Row) : List Row × State :=
  (rows.mapIdx (fun i r => { r with free := s.fresh + (if kind == .bulk then i else 0) }), { s with fresh := s.fresh + rows.length })

/-- The translations that rows would use moved up to the core's cache. -/
def State.warm (s : State) (core v : Nat) (rows : List Row) : State :=
  rows.foldl (fun s r => (s.lookup core v r.va).2) s

/-- A copy put in flight: its rows take what translations are at hand, and its destination is emptied (R189, R192). -/
def State.sendCopy (s : State) (x : Iss) (kind : CopyKind) (out : Bool) (rows : List Row) (counter : Option Nat)
    (word : Option (Nat × Nat × Nat)) (early : Option (Nat × Nat)) : State :=
  let (id, s) := s.name
  let s := s.warm x.f.core x.f.t.vd rows
  let (rows, s) := s.number kind rows
  let (rows, s) := s.rowsStep x.f.core x.f.t.vd out none rows
  let c : Copy := {
    id := id, beam := x.ref, resp := x.f.b.resp, teamGen := x.f.t.gen, vd := x.f.t.vd, launch := x.f.t.launch, kind := kind
    out := out, rows := rows, counter := counter, word := word, early := early, names := x.written
    after := (s.undone x x.threads).map (·.id), counted := x.counted }
  { (s.updBeam x.f.core x.f.slot (fun b => b.empty x.written)) with copies := s.copies ++ [c] }

/-- Does something hold a copy at issue: an access that comes before it and is not performed, or a copy or `ovl` before it whose sources
are due (R195, R198)? -/
def State.copyHold (s : State) (x : Iss) : Bool := !(s.undone x x.threads).isEmpty || s.readsBefore x x.threads

/-- The arrival counter that C names (R225, R228). -/
def Iss.counter (x : Iss) : Option Nat :=
  match x.h.c with
  | .none => none
  | o => some (x.val o .n32 0 % 64)

/-- The poisoned scratchpad words among bytes. -/
def Team.badWords (t : Team) (off n : Nat) : List Nat := (granules 8 off n).filter t.spadPz.contains

/-- A row as it starts: misaligned, or to be translated from its first byte; a copy out reads its source now. -/
def Iss.row (x : Iss) (out : Bool) (align key va off n : Nat) : Row :=
  { key := key, va := va, off := off, len := n, data := if out then x.f.t.load off n else []
    pz := if out then x.f.t.badWords off n else []
    met := out && va % align == 0 && !(x.f.t.badWords off n).isEmpty
    st := if va % align ≠ 0 then .failed 3 va else .walking va [] none }

/-- R221: per-lane copies. -/
def execCopy (h : Head) (m : ModX) (s : State) : Out :=
  s.issue .copy h (.x m) (fun x s =>
    let n := 4 * 2 ^ m.size.toNat
    let off (i : Nat) : Nat := x.val h.b .n32 i % 2 ^ 32
    if x.lanes.isEmpty then .sent s
    else if s.copyHold x then .hold
    else match x.lanes.findSome? (fun i => x.f.t.fault i (off i) n n) with
      | some t => .trap t
      | none =>
        .sent (s.sendCopy x .lanes m.out (x.lanes.map (fun i => x.row m.out n i (x.aAddr i) (off i) n))
          (if m.out then none else x.counter) none none))

/-- The allocation at a position (R18) of the issuer's cluster (R222): a team of no cluster launch is a cluster of one, at the position of
its core. -/
def State.neighbour (s : State) (x : Iss) (pos : Nat) : Option Team :=
  (s.clusterCores x.f.core x.f.b.resp).findSome? (fun n => if n % 16 = pos then (s.core n).teamIn x.f.b.resp else none)

/-- A row of `ncopy`: its bytes are read from the neighbour at issue (R198, R222). -/
def State.nearRow (s : State) (x : Iss) (n i : Nat) : Row :=
  let w := x.val x.h.a .n32 i % 2 ^ 32
  let off := w % 2 ^ 19
  let row (st : RowSt) : Row :=
    { key := i, va := w, off := x.val x.h.b .n32 i % 2 ^ 32, len := n, data := [], pz := [], st := st }
  if off % n ≠ 0 then row (.failed 3 w)
  else match s.neighbour x (w / 2 ^ 28) with
    | some t =>
      if t.within off n then row (.ready [{ dev := 0, addr := off, data := t.load off n, pz := t.loadPz off n }])
      else row (.failed 1 w)
    | none => row (.failed 1 w)

/-- R222: per-lane copies from a neighbour's scratchpad. -/
def execNcopy (h : Head) (m : ModX) (s : State) : Out :=
  s.issue .ncopy h (.x m) (fun x s =>
    let n := 4 * 2 ^ m.size.toNat
    if x.lanes.isEmpty then .sent s
    else if s.copyHold x then .hold
    else match x.lanes.findSome? (fun i => x.f.t.fault i (x.val h.b .n32 i % 2 ^ 32) n n) with
      | some t => .trap t
      | none => .sent (s.sendCopy x .near false (x.lanes.map (s.nearRow x n)) x.counter none none))

/-- The descriptor of a `bcopy` (R223). -/
structure Bulk where
  gaddr : Nat
  soff  : Nat
  ss2   : Nat
  len   : Nat
  n1    : Nat
  n2    : Nat
  gs1   : Int
  gs2   : Int
  ss1   : Nat
  bad   : Bool

/-- The descriptor read from eight registers, with the fields that DIMS does not use ignored (R223, R224). -/
def bulkOf (d dims : Nat) : Bulk :=
  let two : Bool := decide (2 ≤ dims)
  let three : Bool := dims == 3
  let len := bitsOf d 102 20
  let n1 := if two then bitsOf d 128 16 else 1
  let n2 := if three then bitsOf d 144 16 else 1
  let ss1 := if two then bitsOf d 224 19 else 0
  let ss2 := if three then bitsOf d 83 19 else 0
  let soff := bitsOf d 64 19
  { gaddr := bitsOf d 0 56, soff := soff, ss2 := ss2, len := len, n1 := n1, n2 := n2
    gs1 := if two then Ty.i32.val (bitsOf d 160 32) else 0
    gs2 := if three then Ty.i32.val (bitsOf d 192 32) else 0
    ss1 := ss1
    bad := bitsOf d 56 8 != 0 || bitsOf d 122 6 != 0 || bitsOf d 243 13 != 0 || len % 4 != 0 || decide (len < 4) ||
      decide (524288 < len) || n1 == 0 || n2 == 0 || soff % 4 != 0 || ss1 % 4 != 0 || ss2 % 4 != 0 }

/-- The rows of a bulk copy: number, global address and scratchpad offset (R224). -/
def Bulk.rows (k : Bulk) : List (Nat × Nat × Nat) :=
  (List.range k.n2).flatMap (fun j => (List.range k.n1).map (fun i =>
    (j * k.n1 + i, (((k.gaddr : Int) + j * k.gs2 + i * k.gs1) % (2 ^ 64 : Int)).toNat, k.soff + j * k.ss2 + i * k.ss1)))

/-- The 256-bit descriptor in the registers of A. -/
def Iss.bulkWord (x : Iss) : Nat := packCodes 32 ((List.range 8).map (fun k => (x.f.b.reg x.h.a 0 k).val.toNat))

/-- The arrival word of a `bcopy.out` resolved: device, address and virtual address, or its failure; one on another device needs HOST
too (R225). A page whose translation is not at hand is walked first (R193). -/
def State.arrivalWord (s : State) (x : Iss) : Lanes (Option (Nat × Nat × Nat) × Option (Nat × Nat)) × State :=
  match x.h.c with
  | .none => (.ok (none, none), s)
  | o =>
    let va := x.val o .n64 0
    let at_ (s : State) (host : Bool) : Option Place × State :=
      s.resolveHeld x.f.core x.f.t.vd va 4 { w := true, a := true, h := host } x.f.b.missed
    if va % 4 ≠ 0 then (.ok (none, some (3, va)), s)
    else match at_ s false with
      | (none, s) => (.walk, s.wantWalk x.f.core x.f.t.vd va [(x.ref, va)])
      | (some (.here pa), s) => (.ok (some (0, pa, va), none), s)
      | (some (.peer dev), s) =>
        match at_ s true with
        | (some (.fail c), s) => (.ok (none, some (c, va)), s)
        | (_, s) => (.ok (some (dev, va, va), none), s)
      | (some (.fail c), s) => (.ok (none, some (c, va)), s)

/-- R224: a strided bulk copy. -/
def execBcopy (h : Head) (m : ModX) (s : State) : Out :=
  s.issue .bcopy h (.x m) (fun x s =>
    if x.lanes.isEmpty then .sent s
    else
      let k := bulkOf x.bulkWord m.size.toNat
      if k.bad then .trap { cause := 0x0B }
      else match k.rows.findSome? (fun r => x.f.t.fault 0 r.2.2 k.len 4) with
        | some t => .trap t
        | none =>
          if s.copyHold x then .hold
          else
            match if m.out then s.arrivalWord x else (.ok (none, none), s) with
            | (.ok w, s) =>
              .sent (s.sendCopy x .bulk m.out (k.rows.map (fun r => x.row m.out 4 r.1 r.2.1 r.2.2 k.len))
                (if m.out then none else x.counter) w.1 w.2)
            | (.trap t, _) => .trap t
            | (.walk, s) => .walk s)

/-! ### Arrival counters (R190, R191) -/

/-- Is a wait satisfied (R191)? -/
def waitMet (value target : Word) : Bool := decide ((value - target).toNat < 2 ^ 31)

/-- A counter raised, and the beams whose wait it satisfies woken (R191). -/
def State.raise (s : State) (core k : Nat) (amount : Word) : State :=
  let v := (s.core core).counters.getD k 0 + amount
  (s.seeNow core).updCore core (fun c => { c with
    counters := c.counters.put k v
    beams := c.beams.map (fun e => (e.1, match e.2.sleep with
      | .wait j t => if j = k && waitMet v t then { e.2 with sleep := .ready } else e.2
      | _ => e.2)) })

/-- An arrival of an amount, delivered to a counter of a core with the tag of a team, or dropped and counted (R190). -/
def State.arriveAt (s : State) (vd core k : Nat) (amount : Word) (tag : BitVec 16) : State :=
  match (s.core core).team with
  | some t => if t.gen == tag && t.vd == vd then s.raise core k amount else s.countDrop vd
  | none => s.countDrop vd

/-! ### A copy ends (R186 to R189, R225) -/

/-- The pieces of a row that is ready. -/
def Row.ready? (r : Row) : Option (List Piece) := match r.st with | .ready ps => some ps | _ => none

/-- Is a row among those refused? -/
def Row.refusedBy (r : Row) (refused : List Nat) : Bool := refused.contains r.key && r.ready?.isSome

/-- Is the arrival word of a copy behind a port that refuses writes: no row can be counted, so none is written (R353, R392)? -/
def State.wordRefused (s : State) (c : Copy) : Bool :=
  match c.word with
  | some (0, pa, _) => s.shut pa
  | some (dev, _, _) => s.link c.vd dev == .failed
  | none => false

/-- The rows of a copy that are refused: those that another device refuses, of the numbers given (R390), and those that would write
through a port that is shut, to a device that no port reaches, or under an arrival word that cannot be written (R353, R392). -/
def State.refusals (s : State) (c : Copy) (given : List Nat) : List Nat :=
  (c.rows.filter (fun r => (c.out && s.wordRefused c) || (r.ready?.getD []).any (fun p =>
    if p.dev = 0 then c.out && s.shut p.addr else given.contains r.key || (c.out && s.link c.vd p.dev == .failed)))).map (·.key)

/-- Do the ports hold an access to an address of a device for a virtual device: it goes through a CXL port that is out, or to a device
of which every permitted port that has not failed is out (R392)? -/
def State.portHolds (s : State) (v dev a : Nat) : Bool := if dev = 0 then s.portOut a else s.link v dev == .calibrating

/-- Do the ports of a copy hold it: those of its pieces, or that of its arrival word (R392)? -/
def State.portsHold (s : State) (c : Copy) : Bool :=
  c.kind != .near && (c.rows.any (fun r => (r.ready?.getD []).any (fun p => s.portHolds c.vd p.dev p.addr)) ||
    c.word.any (fun w => s.portHolds c.vd w.1 w.2.1))

/-- The pieces that a row has found so far. -/
def RowSt.mapPieces (f : Piece → Piece) : RowSt → RowSt
  | .walking va ps bad => .walking va (ps.map f) bad
  | .ready ps => .ready (ps.map f)
  | .failed code va => .failed code va

/-- Pieces of a row that are to be found. -/
def RowSt.pieces : RowSt → List Piece
  | .walking _ ps _ | .ready ps => ps
  | .failed _ _ => []

/-- What a copy in holds of lines behind a port that has failed while it waited: those lines are uncorrectable, and it reads them so
(R353, R392). `lost` says which addresses those are. -/
def State.loseReads (s : State) (lost : Nat → Bool) (c : Copy) : State :=
  if c.out || c.kind == .near then s
  else
    let here (p : Piece) : Bool := p.dev == 0 && lost p.addr
    let s := (c.rows.flatMap (fun r => r.st.pieces.filter here)).foldl (fun s p => s.found c.vd p.addr p.data.length) s
    let again (p : Piece) : Piece :=
      if here p then { p with data := s.readBytes p.addr p.data.length, pz := s.linePoisoned p.addr p.data.length } else p
    { s with copies := s.copies.map (fun k =>
        if k.id = c.id then { k with rows := k.rows.map (fun r => { r with st := r.st.mapPieces again }) } else k) }

/-- The threads and other devices of a copy out (R205). -/
def Copy.reach (c : Copy) : List Nat × List Nat :=
  (c.rows.map c.threadOf, (c.rows.flatMap (fun r => r.devices.1)).eraseDups)

/-- Must an earlier copy out of the same thread to the same device be complete first (R205)? -/
def State.copiesBefore (s : State) (c : Copy) : Bool :=
  c.out && s.copies.any (fun e => decide (e.id < c.id) && e.beam == c.beam && e.writesTo c.reach.1 c.reach.2)

/-- The lines of this package that the pieces of a copy's rows cover whole with clean bytes: the copy unit writes each line once
(R181), which clears its mark (R384). -/
def cleanLines (rows : List Row) : List Nat :=
  let ps := (rows.flatMap (fun r => r.ready?.getD [])).filter (fun p => p.dev == 0)
  let covers (g i : Nat) : Bool := ps.any (fun p => decide (p.addr ≤ 64 * g + i) && decide (64 * g + i < p.addr + p.data.length))
  ((ps.map (fun p => p.addr / 64)).eraseDups).filter (fun g =>
    (List.range 64).all (covers g) && !ps.any (fun p => p.pz && p.addr / 64 == g))

/-- The first row of a bulk copy that fails at the sender. -/
def Copy.firstFailed (c : Copy) : Option (Nat × Nat × Nat) :=
  c.rows.findSome? (fun r => match r.st with | .failed code va => some (r.key, code, va) | _ => none)

/-- The rows whose bytes are written (R188). -/
def Copy.written (c : Copy) (refused : List Nat) : List Row :=
  let bound : Option Nat := match c.kind with
    | .bulk => if c.early.isSome then some 0 else c.firstFailed.map (·.1)
    | _ => none
  c.rows.filter (fun r => r.ready?.isSome && !r.refusedBy refused && (match bound with | some b => decide (r.key < b) | none => true))

/-- Does an allocation of the copy's team still stand on its core, in its slot? -/
def State.copyTeam (s : State) (c : Copy) : Bool :=
  match (s.core c.beam.core).teamIn c.resp with
  | some t => t.gen == c.teamGen
  | none => false

/-- The bytes of a row put into the scratchpad. -/
def Team.putRow (t : Team) (r : Row) : Team :=
  ((r.ready?.getD []).foldl (fun (acc : Team × Nat) p => (acc.1.store acc.2 p.data p.pz, acc.2 + p.data.length)) (t, r.off)).1

/-- The bytes of a row put into global memory here; other devices hold their own. -/
def State.putRow (s : State) (r : Row) : State :=
  (r.ready?.getD []).foldl (fun s p => if p.dev = 0 then s.storeBytes p.addr p.data p.pz else s) s

/-- The rows written, with the counter or arrival word raised for each (R225); in a poisoned line the word is raised from its stored bits and
stays marked (DESIGN CHOICE, log entry 161). -/
def State.writeRows (s : State) (c : Copy) (rows : List Row) : State :=
  if c.out then
    let s := rows.foldl State.putRow s
    let s := if c.kind == .lanes then { s with linePz := s.linePz.filter (fun g => !(cleanLines rows).contains g) } else s
    match c.word with
    | some (0, pa, _) =>
      if rows.isEmpty then s else s.storeBytes pa (leBytes 4 (s.readNat pa 4 + rows.length)) false
    | _ => s
  else
    let s := if s.copyTeam c then s.updTeam c.beam.core c.resp (fun t => rows.foldl Team.putRow t) else s
    match c.counter with
    | some k =>
      rows.foldl (fun s _ => if c.resp.isNone then s.arriveAt c.vd c.beam.core k 1 c.teamGen else s.countDrop c.vd) s
    | none => s

/-- The status words of one lane (R186). POISON is 0 where CODE is not (DESIGN CHOICE, log entry 162). -/
def Row.status (r : Row) (refused : List Nat) : List Cell32 :=
  let pz : Nat := match r.st with | .ready ps => (ps.any (·.pz)).toNat | _ => 0
  let code : Nat := match r.st with | .failed c _ => c | _ => if r.refusedBy refused then 4 else 0
  let v := if code = 0 then 16 * pz else code + 256 * (r.va % 2 ^ 56)
  [{ val := BitVec.ofNat 32 v }, { val := BitVec.ofNat 32 (v / 2 ^ 32) }]

/-- The status words of a bulk copy (R187, R224). POISON counts a poisoned line once for each row written that reads it (DESIGN CHOICE, log
entry 160). -/
def Copy.status (c : Copy) (refused : List Nat) : List Cell32 :=
  let pz := min ((c.written refused).map (fun r => ((r.ready?.getD []).filter (·.pz)).length)).sum 0xFF_FFFF
  let no := (c.rows.filter (fun r => r.refusedBy refused)).map (·.key)
  let at_ (code first detail : Nat) : List Nat := [code + 256 * pz, first, detail % 2 ^ 32, detail / 2 ^ 32]
  let ws : List Nat :=
    match c.early with
    | some (code, va) => at_ code 0 (256 * (va % 2 ^ 56))
    | none =>
      match c.firstFailed with
      | some (key, code, va) => at_ code key (256 * (va % 2 ^ 56))
      | none =>
        match no with
        | k :: _ => at_ 4 k no.length
        | [] => at_ 0 0 0
  ws.map (fun w => { val := BitVec.ofNat 32 w })

/-- The status of a copy as register values. -/
def Copy.out? (c : Copy) (refused : List Nat) : RegOut :=
  match c.kind with
  | .bulk => c.names.words 0 (c.status refused)
  | _ => RegOut.all (c.rows.map (fun r => c.names.words r.key (r.status refused)))

/-- Has a copy read poison, be it for a row that fails or is refused (R386, R387)? -/
def Copy.marked (c : Copy) : Bool := c.rows.any (fun r => r.met || r.st.pieces.any (·.pz))

/-- A result delivered, or dropped by generation tag and counted (R189). -/
def State.deliverOrDrop (s : State) (vd : Nat) (r : BeamRef) (ns : Names) (o : RegOut) : State :=
  match s.ref? r with
  | some _ => s.deliver r ns o
  | none => s.countDrop vd

/-- R189: a copy finishes. What it has written its core returns nothing older than from there on (R198). -/
def execCopyStatusFill (id : Nat) (refused : List Nat) (s : State) : Out :=
  match s.copies.find? (·.id == id) with
  | some c =>
    if c.rows.any Row.waits || c.after.any s.pending || s.copiesBefore c || s.portsHold c then .next s
    else
      let refused := s.refusals c refused
      let s := (s.writeRows c (c.written refused)).seeNow c.beam.core
      let s := if c.marked && !c.counted then s.countPoison c.vd c.launch else s
      let s := { s with copies := s.copies.filter (·.id != id) }
      .next ((s.deliverOrDrop c.vd c.beam c.names (c.out? refused)).releaseKept c.beam.core)
  | none => .next s

/-! ### Walks (R193) -/

/-- Does a walk's page meet a range of bytes of its virtual device? -/
def Walk.meets (w : Walk) (v first len : Nat) : Bool :=
  w.vd == v && decide (first < (w.page + 1) * 2 ^ w.log) && decide (w.page * 2 ^ w.log < first + len)

/-- Does a row wait for a walk? -/
def Row.awaits (r : Row) (w : Walk) : Bool := match r.st with | .walking va _ _ => va / 2 ^ w.log == w.page | _ => false

/-- A beam that holds for a walk has its fault: the page is known to be unmapped when its instruction presents itself again (R193). -/
def State.missPage (s : State) (e : BeamRef × Nat) : State :=
  match s.ref? e.1 with
  | some _ => s.updBeam e.1.core e.1.slot (fun b => { b with missed := b.missed ++ [e.2 / 2 ^ 16] })
  | none => s

/-- The rows of a copy that wait for a walk, with its result: a fault ends them, and a translation carries them on. -/
def State.walkRows (s : State) (w : Walk) (hit : Option Trans) (c : Copy) : State :=
  let start : List Row := c.rows.map (fun r =>
    match hit, r.st with
    | none, .walking a _ _ => if r.awaits w then { r with st := .failed 1 a } else r
    | _, _ => r)
  let rows := start.foldl (fun (acc : List Row × State) r =>
    if r.awaits w then
      let a := acc.2.rowStep c.beam.core c.vd c.out hit r
      (acc.1 ++ [a.1], a.2)
    else (acc.1 ++ [r], acc.2)) ([], s)
  { rows.2 with copies := rows.2.copies.map (fun k => if k.id = c.id then { k with rows := rows.1 } else k) }

/-- The translation that a walk finds, or none for a fault. -/
def State.found? (s : State) (w : Walk) : Option Trans :=
  (s.walk w.vd w.va).map (fun e => { vd := w.vd, page := w.va / 2 ^ e.1 * 2 ^ e.1, log := e.1, leaf := BitVec.ofNat 64 e.2 })

/-- An overlay load that waits for a walk, with its result. -/
def OvlLoad.walked (w : Walk) (hit : Option Trans) (l : OvlLoad) : OvlLoad :=
  match l.wait with
  | some va =>
    if l.vd == w.vd && dieOf l.core == w.die && va / 2 ^ w.log == w.page then
      match hit with
      | some t => { l with wait := none, trans := l.trans ++ [t] }
      | none => { l with wait := none, missed := l.missed ++ [va / 2 ^ 16] }
    else l
  | none => l

/-- The barriers that an ended beam may have held back looked at again, where a copy of its has read its last source (R202). -/
def State.readDone (s : State) (c : Copy) : State :=
  if (s.ref? c.beam).isNone && c.reading then s.resettle c.beam.core else s

/-- A walk ended: every access that waits for it has its result. A fault is not cached, nor is a result over a range being invalidated, or
one of a virtual device whose caches are off (R193, R334, R349). -/
def State.endWalk (s : State) (w : Walk) : State :=
  let s := { s with walks := s.walks.filter (·.id != w.id) }
  let hit := s.found? w
  let s : State := match hit with
    | some t => if s.barred w.vd t.page t.log || s.uncached w.vd then s else s.keepDie w.die t
    | none => w.beams.foldl State.missPage s
  let s : State := { s with ovls := s.ovls.map (OvlLoad.walked w hit) }
  let cs := s.copies.filter (fun c => c.vd == w.vd && dieOf c.beam.core == w.die)
  cs.foldl State.readDone (cs.foldl (fun s c => s.walkRows w hit c) s)

/-- R193: a walk finishes, where its die runs it: one that is queued does not finish. -/
def execPageWalkComplete (id : Nat) (s : State) : Out :=
  match s.walks.find? (·.id == id) with
  | some w => if s.walkRuns w then .next (s.endWalk w) else .next s
  | none => .next s

/-! ### Shape variables (R227) -/

/-- The key of a shape variable: context and index (R289). -/
def shapeKey (ctx i : Nat) : Nat := 32 * ctx + i % 32

/-- The context that issued the launch of a team. -/
def State.ctxOf (s : State) (t : Team) : Nat :=
  match s.vds.look t.vd with
  | some d => ((d.launches.look t.launch).bind (fun l => d.queues.look l.queue)).elim 0 (·.ctx)
  | none => 0

/-- R227: a shape variable written, lane by lane. -/
def execSvst (h : Head) (s : State) : Out :=
  s.issue .svst h .none (fun x s =>
    if s.acquiring x x.threads then .hold
    else
      let ctx := s.ctxOf x.f.t
      .sent (s.updVd x.f.t.vd (fun d => { d with
        vars := x.lanes.foldl (fun vs i =>
          vs.put (shapeKey ctx (x.val h.a .n32 i)) { val := BitVec.ofNat 64 (x.val h.b .n64 i), pz := x.pz h.b .n64 i }) d.vars })))

end Sys2Proof.Machine
end

