-- ==== Sys2Proof/Machine/Sync.lean ====
section
/-!
DEFINITION. Group 0x7: fences, counters, sleep, barriers, triggers and spawns (R228 to R232, R247 to R250, R274 to R278), with
the events that wake a beam.
-/
namespace Sys2Proof.Machine

/-- The accesses in flight that come before a synchronisation instruction in the program order of its path (R195). -/
def State.pathUndone (s : State) (x : Iss) : List GOp := s.undone x x.pathThreads

/-- Does something hold a release at issue: an earlier access of the path not performed, or a copy or `ovl` of it whose reads are due
(R195, R198, R202, R275, R277, R278)? -/
def State.releaseHold (s : State) (x : Iss) : Bool := !(s.pathUndone x).isEmpty || s.readsBefore x x.pathThreads

/-! ### Fences (R229) -/

/-- Is a marked read of a path still to fill its destination (R229)? DEDUCED (log entry 185): a `red` has none, and is not waited for. -/
def State.readsDue (s : State) (x : Iss) : Bool := s.fills.any (fun f => f.beam == x.ref && f.reads.any x.pathThreads.contains)

/-- What a fence leaves behind for the threads of its path: a release of narrow scope makes their later marked writes narrow releases
(R199, R203), and a release fence puts the accesses before it before those writes (R229). -/
def State.fenced (s : State) (x : Iss) (m : ModF) : State :=
  let ids := x.pathThreads.flatMap (fun t => (x.f.b.fenced.getD t []).filter s.pending) ++ (s.undone x x.pathThreads).map (·.id)
  s.updBeam x.f.core x.f.slot (fun b => { b with
    fenced := if m.ord == .rel then putNames b.fenced x.pathThreads ids else b.fenced
    narrow := if m.ord != .acq && Scope.narrow m.scope then b.narrow ++ x.pathThreads.filter (fun t => !b.narrow.contains t) else b.narrow })

/-- R229: a full or acquire fence holds issue until the marked reads before it have filled, and a full fence until the marked writes have
been performed; a release fence holds later marked writes. A fence waits for no copy to complete; a full fence holds while a copy or `ovl`
before it still has its source to read, since that read comes before the fence (R198, R201, R204). DEDUCED (log entry 34). -/
def execFence (h : Head) (m : ModF) (s : State) : Out :=
  s.issue .fence h (.f m) (fun x s =>
    if x.lanes.isEmpty then .sent s
    else
      match m.ord with
      | .acq => if s.readsDue x then .hold else .sent (s.seeNow x.f.core)
      | .rel => .sent (s.fenced x m)
      | _ => if s.readsDue x || s.releaseHold x then .hold else .sent ((s.fenced x m).seeNow x.f.core))

/-! ### Counters (R190, R191, R228, R230, R231) -/

/-- R231: a counter tested; a beam whose test fails sleeps until the counter reaches the target. -/
def execWait (h : Head) (s : State) : Out :=
  s.issue .wait h .none (fun x s =>
    if x.lanes.isEmpty then .sent s
    else
      let k := x.val h.a .n32 0 % 64
      let t : Word := BitVec.ofNat 32 (x.val h.b .n32 0)
      if waitMet ((s.core x.f.core).counters.getD k 0) t then .sent (s.seeNow x.f.core) else .sleep (.wait k t) s)

/-- The core that an arrival goes to: the own core, or a position of its hardware cluster (R18, R228). -/
def Iss.arriveCore (x : Iss) : Nat :=
  match x.h.b with
  | .none => x.f.core
  | o => x.f.core / 16 * 16 + x.val o .n32 0 % 16

/-- The amount of an arrival: 1 where C is none. -/
def Iss.arriveAmount (x : Iss) : Word :=
  match x.h.c with
  | .none => 1
  | o => BitVec.ofNat 32 (x.val o .n32 0)

/-- R230: an arrival takes the tag of the ordinary team at its target and is in flight until the writes before it have been
performed; with no such team it is dropped and counted (R190). -/
def execArrive (h : Head) (s : State) : Out :=
  s.issue .arrive h .none (fun x s =>
    if x.lanes.isEmpty then .sent s
    else if s.acquiring x x.pathThreads || s.readsBefore x x.pathThreads then .hold
    else
      match (s.core x.arriveCore).team with
      | some t =>
        if t.vd = x.f.t.vd then
          let (id, s) := s.name
          .sent { s with arrivals := s.arrivals ++ [{
            id := id, vd := t.vd, core := x.arriveCore, counter := x.val h.a .n32 0 % 64, amount := x.arriveAmount
            tag := t.gen, launch := t.launch, team := t.index, after := (s.pathUndone x).map (·.id) ++ x.f.b.fences x.pathThreads }] }
        else .sent (s.countDrop x.f.t.vd)
      | none => .sent (s.countDrop x.f.t.vd))

/-- The saved team that an arrival is for, its tag unchanged (R190). -/
def State.savedFor (s : State) (a : Arrival) : Bool :=
  match s.launch? a.vd a.launch with
  | some l => match l.teams.look a.team with
    | some (.saved v) => v.team.gen == a.tag
    | _ => false
  | none => false

/-- An arrival added to the counter image of a saved team (R190). -/
def State.raiseSaved (s : State) (a : Arrival) : State :=
  s.updLaunch a.vd a.launch (fun l => { l with teams := l.teams.upd a.team (fun st =>
    match st with
    | .saved v => .saved { v with counters := v.counters.put a.counter (v.counters.getD a.counter 0 + a.amount) }
    | st => st) })

/-- R191: an arrival reaches its counter and wakes the waiters whose condition now holds; one for a saved team is added to
the saved image, and one whose team is gone is dropped and counted (R190). -/
def execArrivalCounterIncrement (id : Nat) (s : State) : Out :=
  match s.arrivals.find? (·.id == id) with
  | some a =>
    if a.after.any s.pending then .next s
    else
      let s := { s with arrivals := s.arrivals.filter (·.id != id) }
      if s.savedFor a then .next (s.raiseSaved a) else .next (s.arriveAt a.vd a.core a.counter a.amount a.tag)
  | none => .next s

/-! ### Sleep (R232) -/

/-- R232: the beam sleeps for a number of cycles; 0 has the effect of YIELD. -/
def execSleep (h : Head) (s : State) : Out :=
  s.issue .sleep h .none (fun x s =>
    if x.lanes.isEmpty || x.val h.a .n32 0 % 2 ^ 32 == 0 then .sent s else .sleep .sleeping s)

/-- R232: the cycles of a sleep have passed. -/
def execSleepExpiry (core slot : Nat) (s : State) : Out :=
  match s.beam? core slot with
  | some b => if b.sleep == .sleeping then .next (s.setBeam core slot { b with sleep := .ready }) else .next s
  | none => .next s

/-! ### Barriers (R247, R275) -/

/-- A beam's arrival at a barrier's current generation. -/
def arrived (bars : FMap Barrier) (b i : Nat) : FMap Barrier :=
  let x := bars.getD b {}
  bars.put b { x with arrived := if x.arrived.contains i then x.arrived else x.arrived ++ [i] }

/-- The generation of a team's barrier. -/
def State.barGen (s : State) (core : Nat) (slot : Option Nat) (cluster : Bool) (b : Nat) : Nat :=
  match (s.core core).teamIn slot with
  | some t => ((if cluster then t.cbars else t.bars).getD b {}).gen
  | none => 0

/-- An arrival at a barrier: the beam goes on when its arrival completes the generation, and sleeps otherwise. -/
def State.arriveBar (s : State) (x : Iss) (cluster : Bool) (b : Nat) : Res :=
  if x.lanes.isEmpty then .sent s
  else if s.releaseHold x then .hold
  else
    let slot := x.f.b.resp
    let g := s.barGen x.f.core slot cluster b
    let s := s.updTeam x.f.core slot (fun t =>
      if cluster then { t with cbars := arrived t.cbars b x.f.b.idx } else { t with bars := arrived t.bars b x.f.b.idx })
    let s := if cluster then s.settleCbar x.f.core slot b else s.settleBar x.f.core slot b
    if s.barGen x.f.core slot cluster b = g then .sleep (if cluster then .cbar b else .bar b) s else .sent s

/-- R275: arrival at a team barrier. -/
def execBar (h : Head) (s : State) : Out :=
  s.issue .bar h .none (fun x s => s.arriveBar x false (x.val h.a .n32 0 % 16))

/-- R275: arrival at a cluster barrier. -/
def execCbar (h : Head) (s : State) : Out :=
  s.issue .cbar h .none (fun x s => s.arriveBar x true (x.val h.a .n32 0 % 4))

/-! ### Triggers (R277) -/

/-- R277: the beam is marked as triggered, for good. -/
def execTrigger (h : Head) (s : State) : Out :=
  s.issue .trigger h .none (fun x s =>
    if x.lanes.isEmpty || x.f.b.triggered then .sent s
    else if s.releaseHold x then .hold
    else
      let s := s.updBeam x.f.core x.f.slot (fun b => { b with triggered := true })
      match x.f.b.resp with
      | some _ => .sent s
      | none =>
        let k := 32 * x.f.t.index + x.f.b.idx
        let s := s.updLaunch x.f.t.vd x.f.t.launch (fun l =>
          if l.trig.contains k then l else { l with trig := l.trig ++ [k] })
        .sent (s.settleTrigger x.f.t.vd x.f.t.launch))

/-! ### Spawn bins (R248, R250, R278) -/

/-- A node of a graph of a virtual device. -/
def State.node? (s : State) (v g n : Nat) : Option Node :=
  match s.vds.look v with
  | some d => (d.graphs.look g).bind (fun gr => gr.nodes.look n)
  | none => none

/-- A node changed. -/
def State.updNode (s : State) (v g n : Nat) (f : Node → Node) : State :=
  s.updVd v (fun d => { d with graphs := d.graphs.upd g (fun gr => { gr with nodes := gr.nodes.upd n f }) })

/-- Entry k of SUCC (R290): valid, trigger edge, node. -/
def Node.succAt (n : Node) (k : Nat) : Option (Bool × Nat) :=
  let e := bitsOf n.succ.toNat (16 * k) 16
  if 2 ^ 15 ≤ e then some (decide (1 ≤ e / 2 ^ 14 % 2), e % 256) else none

/-- Threads per team of a node's kernel (R248). -/
def Node.fill (n : Node) : Nat := 32 * (bitsOf n.packet.toNat 32 5 + 1)

/-- The graph and node whose bin a successor index names (R278, R290). -/
def State.spawnTo (s : State) (t : Team) (k : Nat) : Option (Nat × Nat × Node) :=
  match (s.launch? t.vd t.launch).bind (·.node) with
  | none => none
  | some (g, n) =>
    match (s.node? t.vd g n).bind (·.succAt k) with
    | none => none
    | some (_, m) =>
      match s.node? t.vd g m with
      | some nd => if nd.hasBin then some (g, m, nd) else none
      | none => none

/-- A record appended to a bin, or none where the buffer and the spill area are full (R248, R250). The coalescing timer
starts at the first record after the last start (R249). -/
def Node.accept (n : Node) (r : SpawnRec) : Option Node :=
  let n' := { n with timing := n.timing || n.timer != 0 }
  if n.bin.length < 2 * n.fill then some { n' with bin := n.bin ++ [r] }
  else if n.excess.length < n.spill then some { n' with excess := n.excess ++ [r] }
  else none

/-- Records appended in order, while there is room or, under `try`, skipping those refused: the lanes accepted, the records
left, and the bin. -/
def Node.acceptAll (n : Node) (try_ : Bool) (rs : List SpawnRec) : List Nat × List SpawnRec × Node :=
  rs.foldl (fun acc r =>
    if !try_ && !acc.2.1.isEmpty then (acc.1, acc.2.1 ++ [r], acc.2.2)
    else match acc.2.2.accept r with
      | some n => (acc.1 ++ [r.lane], acc.2.1, n)
      | none => (acc.1, acc.2.1 ++ [r], acc.2.2)) ([], [], n)

/-- The record of a lane: its bytes, and which of its 8-byte words are poisoned (R278, R384). -/
def Team.record (t : Team) (lane off n : Nat) : SpawnRec :=
  { lane := lane, bytes := t.load off n, pz := (List.range (n / 8)).map (fun k => t.loadPz (off + 8 * k) 8) }

/-- The fault of a spawn: that of the lowest lane whose offset is misaligned or whose record lies beyond the allocation (R156, R278). Where
no bin gives a record's size, only misalignment comes before the spawn-target fault (log entry 30). -/
def Iss.spawnFault (x : Iss) (target : Option (Nat × Nat × Node)) (k : Nat) : Option Trap :=
  match target with
  | some (_, _, nd) => x.lanes.findSome? (fun i => x.f.t.fault i (x.off i) nd.rsize 16)
  | none => (x.lanes.findSome? (fun i => x.f.t.fault i (x.off i) 0 16)).orElse (fun _ => some { cause := 0x0C, addr := BitVec.ofNat 64 k })

/-- A spawn: a responder names no bin (R317); its faults, then its records, read at issue and accepted in ascending lane order. -/
def State.spawnOp (s : State) (x : Iss) (fin : List Nat → List SpawnRec → Nat → State → Res) : Res :=
  if x.lanes.isEmpty then .sent s
  else
    let k := x.val x.h.b .n32 0 % 16
    let target := if x.f.b.resp.isSome then none else s.spawnTo x.f.t k
    match x.spawnFault target k, target with
    | some t, _ => .trap t
    | none, none => .trap { cause := 0x0C, addr := BitVec.ofNat 64 k }
    | none, some (g, m, nd) =>
      if s.releaseHold x then .hold
      else
        let r := nd.acceptAll (x.op == .spawnTry) (x.lanes.map (fun i => x.f.t.record i (x.off i) nd.rsize))
        let s := s.meets x (x.lanes.any (fun i => x.f.t.loadPz (x.off i) nd.rsize))
        fin r.1 r.2.1 m (s.updNode x.f.t.vd g m (fun _ => r.2.2))

/-- R278: one record for each thread; full storage parks the beam (R250). -/
def execSpawn (h : Head) (s : State) : Out :=
  s.issue .spawn h .none (fun x s =>
    s.spawnOp x (fun _ left m s => if left.isEmpty then .sent s else .sleep (.spawning m left) s))

/-- R278: one record for each thread; the predicate says which were accepted. -/
def execSpawnTry (h : Head) (s : State) : Out :=
  s.issue .spawnTry h .none (fun x s =>
    s.spawnOp x (fun ok _ _ s => .write (x.each (fun i => x.outPred i (ok.contains i) false)) s))

/-- R250: a parked spawn retries its remaining lanes as room appears. -/
def execSpawnRetry (core slot : Nat) (s : State) : Out :=
  match s.beam? core slot with
  | some b =>
    match b.sleep, s.teamOf core b with
    | .spawning m left, some t =>
      match (s.launch? t.vd t.launch).bind (·.node) with
      | none => .next s
      | some (g, _) =>
        match s.node? t.vd g m with
        | none => .next s
        | some nd =>
          let r := nd.acceptAll false left
          .next ((s.updNode t.vd g m (fun _ => r.2.2)).setBeam core slot
            { b with sleep := if r.2.1.isEmpty then .ready else .spawning m r.2.1 })
    | _, _ => .next s
  | none => .next s

end Sys2Proof.Machine
end

