-- ==== Sys2Proof/Machine/Census.lean ====
section
/-!
DEFINITION. Group 0x8: local directories, moves and censuses (R304 to R326), with their events.
-/
namespace Sys2Proof.Machine

/-! ### The local directory (R304 to R306) -/

/-- An entry of a directory; one that the map does not hold is free and zero. -/
def Core.entry (c : Core) (i : Nat) : DirEntry := c.dir.getD i {}

/-- The lowest free index of a directory. -/
def Core.freeEntry (c : Core) : Option Nat := (List.range 256).find? (fun i => (c.entry i).state == 0)

/-- A directory entry changed. -/
def State.setEntry (s : State) (core i : Nat) (e : DirEntry) : State :=
  s.updCore core (fun c => { c with dir := if e = {} then c.dir.del i else c.dir.put i e })

/-- An entry as `dirq` reads it (R304). -/
def DirEntry.bits (e : DirEntry) : Nat :=
  e.key.toNat + 2 ^ 64 * e.tag.toNat + 2 ^ 96 * e.len.toNat + 2 ^ 128 * e.addr.toNat + 2 ^ 184 * e.state +
    2 ^ 192 * e.answered.toNat

/-- Do key and mask match (R305)? -/
def Census.keyed (c : Census) (e : DirEntry) : Bool := (e.key ^^^ c.key) &&& c.mask == 0

/-- Does a census in a slot match an entry (R305)? -/
def Census.finds (c : Census) (slot : Nat) (e : DirEntry) : Bool :=
  (e.state == 1 || e.state == 2) && c.keyed e && !e.answered.getLsbD slot

/-- The cores of a virtual device that are there: a position left empty by a retired core is not (R389). -/
def State.coresOf (s : State) (d : VDev) : List Nat := d.cores.filter (fun n => !s.mgmt.gone.contains n)

/-! ### Responders (R305, R308, R311) -/

/-- A census changed. -/
def State.updCensus (s : State) (v slot : Nat) (f : Census → Census) : State :=
  s.updVd v (fun d => { d with slots := d.slots.upd slot f })

/-- A responder spawned for an entry, with the group that shares its beam: its bit is set in the same step, and the core counts it unless `credit` (R305,
R311). -/
def State.spawnResp (s : State) (v slot core i batch : Nat) (credit : Bool) : State :=
  let e := (s.core core).entry i
  let e := { e with answered := e.answered ||| (1#64 <<< slot) }
  let (id, s) := s.name
  (s.setEntry core i e).updCensus v slot (fun c => { c with
    counted := if credit then c.counted else c.counted.put core (c.counted.getD core 0 + 1)
    resps := c.resps ++ [{
      id := id, batch := batch, core := core, index := i, entry := e, placed := false, msg := none, closed := false }] })

/-- The slots of the censuses open at a core, and not closing (R308, R312). -/
def VDev.openAt (d : VDev) (core : Nat) : List Nat := (d.slots.filter (fun e => e.2.scanned.contains core && e.2.clearing.isNone)).map (·.1)

/-- An installed entry tested against the censuses open at its core (R308): a `dirput` against those whose report is unsent,
a move commit against all. The spawns to credit to the source are returned (R314). -/
def State.testInstall (s : State) (v core i : Nat) (move : Bool) : List Nat × State :=
  match s.vds.look v with
  | none => ([], s)
  | some d =>
    (d.openAt core).foldl (fun acc slot =>
      match acc.2.vds.look v with
      | none => acc
      | some d =>
        match d.slots.look slot with
        | none => acc
        | some c =>
          let sent : Bool := c.reported.contains core
          if c.finds slot ((acc.2.core core).entry i) && (move || !sent) then
            let (b, s) := acc.2.name
            (if sent then acc.1 ++ [slot] else acc.1, s.spawnResp v slot core i b sent)
          else acc) ([], s)

/-- Is a move one that a core's report waits for: committed and not acknowledged, with a matching entry (R311)? -/
def Census.waitsFor (c : Census) (vd core : Nat) (m : Move) : Bool :=
  m.vd == vd && m.src == core && (match m.st with
    | .committed _ e => c.keyed e
    | .acked _ e _ => c.keyed e
    | _ => false)

/-- R308: a census arrives at a core, which scans its directory. The report will wait for the moves out of the core that
match and whose commit is on its way (R311). -/
def execCensusScan (vd slot core : Nat) (s : State) : Out :=
  match s.vds.look vd with
  | none => .next s
  | some d =>
    match d.slots.look slot with
    | none => .next s
    | some c =>
      if c.scanned.contains core || !(s.coresOf d).contains core then .next s
      else
        let held := (s.moves.filter (c.waitsFor vd core)).map (·.id)
        let s := s.updCensus vd slot (fun c => { c with scanned := c.scanned ++ [core], waits := c.waits.put core held })
        let hits := (List.range 256).filter (fun i => c.finds slot ((s.core core).entry i))
        .next ((chunks 32 ((hits.length + 31) / 32) hits).foldl (fun s group =>
          let (b, s) := s.name
          group.foldl (fun s i => s.spawnResp vd slot core i b false) s) s)

/-! ### Placing responders (R309) -/

/-- The next group of responders of a core that waits for a beam, in the order of their lanes. -/
def Census.group? (c : Census) (core : Nat) : Option (List Resp) :=
  (c.resps.find? (fun r => r.core == core && !r.placed && !r.closed)).map (fun r => c.resps.filter (fun q => q.batch == r.batch))

/-- Registers, matrix slots and scratchpad bytes that the beams and allocations of a core hold (R138, R177). -/
def Core.vregsIn (c : Core) (quad : Nat) : Nat :=
  ((c.beams.filter (fun e => e.1 / 16 == quad)).map (fun e => e.2.decl.vregs)).sum

/-- Matrix slots held on a quadrant. -/
def Core.mslotsIn (c : Core) (quad : Nat) : Nat :=
  ((c.beams.filter (fun e => e.1 / 16 == quad)).map (fun e => e.2.decl.mcap * e.2.decl.mcount)).sum

/-- Bytes rounded up to the 256-byte alignment of an allocation. -/
def spadRoom (n : Nat) : Nat := (n + 255) / 256 * 256

/-- Scratchpad bytes held. -/
def Core.spadHeld (c : Core) : Nat :=
  (c.team.elim 0 (fun t => spadRoom t.decl.spad)) + (c.resps.map (fun e => spadRoom e.2.decl.spad)).sum +
    (c.kept.map (fun e => spadRoom e.2.decl.spad)).sum

/-- Does a beam fit a quadrant's registers beside what is there (R138)? -/
def Core.quadFits (c : Core) (quad : Nat) (d : Decl) : Bool :=
  decide (c.vregsIn quad + d.vregs ≤ 1024) && decide (c.mslotsIn quad + d.mcap * d.mcount ≤ 1024)

/-- Does an allocation fit the core's scratchpad? -/
def Core.spadFits (c : Core) (d : Decl) : Bool := decide (c.spadHeld + spadRoom d.spad ≤ 2 ^ 19)

/-- The first beam slot with room for a beam. -/
def Core.roomFor (c : Core) (d : Decl) : Option Nat :=
  if c.spadFits d then (List.range 64).find? (fun i => (c.beams.look i).isNone && c.quadFits (i / 16) d) else none

/-- The registers of a responder that differ from R236: v0 to v6 from its entry (R309). -/
def respV (rs : List Resp) : FMap Cell32 :=
  putAll [] ((rs.mapIdx (fun i r =>
    let w (n x : Nat) : Nat × Cell32 := (i + 32 * n, { val := BitVec.ofNat 32 x })
    [w 0 r.entry.addr.toNat, w 1 (r.entry.addr.toNat / 2 ^ 32), w 2 r.entry.len.toNat, w 3 r.entry.tag.toNat
     , w 4 r.entry.key.toNat, w 5 (r.entry.key.toNat / 2 ^ 32), w 6 r.index])).flatten)

/-- A responder beam placed in a slot: a team of one beam with the asker's declarations (R309). -/
def State.placeResp (s : State) (core slot cslot : Nat) (c : Census) (rs : List Resp) : State :=
  let gen := (s.core core).beamGens.getD slot 0 + 1
  let w (n x : Nat) : Nat × Cell32 := (n, { val := BitVec.ofNat 32 x })
  let live := maskOf (fun i => match rs[i]? with | some r => !r.closed | none => false)
  let v := (respV rs).filter (fun e => decide (e.1 / 32 < c.decl.vregs))
  let cr := (putAll [] [w 1 rs.length, w 5 c.arg.toNat, w 6 cslot]).filter (fun e => decide (e.1 < c.decl.cregs))
  let b : Beam := { idx := 0, resp := some slot, gen := gen, decl := c.decl, flow := Flow.start live c.entry, v := v, c := cr
                    planted := !c.decl.noinit }
  let t : Team := { vd := c.vd, launch := c.launch, gen := gen, decl := c.decl, census := some cslot, lanes := rs.map (·.id) }
  let ids := rs.map (·.id)
  (s.updCore core (fun k => { k with
    beams := k.beams.put slot b, resps := k.resps.put slot t, older := k.older.filter (fun e => e.slot != slot)
    beamGens := k.beamGens.put slot gen })).updCensus c.vd cslot
    (fun c => { c with resps := c.resps.map (fun r => if ids.contains r.id then { r with placed := true } else r) })

/-- The first responder beam that waits on a core and fits its free room: slot, census and responders. DESIGN CHOICE (log entry 179): the lowest
census slot first, then the order in which its responders were spawned. -/
def State.respWaiting (s : State) (core : Nat) : Option (Nat × Census × List Resp) :=
  s.vds.findSome? (fun e => e.2.slots.findSome? (fun q =>
    if ((s.core core).roomFor q.2.decl).isSome then (q.2.group? core).map (fun g => (q.1, q.2, g)) else none))

/-- R309: the first responder beam of a core that fits is placed in free room; the threads of responders that are over start exited. -/
def execResponderPlace (core : Nat) (s : State) : Out :=
  match s.respWaiting core with
  | none => .next s
  | some (slot, c, g) =>
    match (s.core core).roomFor c.decl with
    | some i => .next (s.placeResp core i slot c g)
    | none => .next s

/-! ### Answers (R310, R312, R313, R325) -/

/-- A responder of a census by name, wherever it stands. -/
def State.respOf (s : State) (v slot id : Nat) : Option Resp :=
  match s.vds.look v with
  | some d => (d.slots.look slot).bind (fun c => c.resps.find? (·.id == id))
  | none => none

/-- A responder changed. -/
def State.updResp (s : State) (v slot id : Nat) (f : Resp → Resp) : State :=
  s.updCensus v slot (fun c => { c with resps := c.resps.map (fun r => if r.id = id then f r else r) })

/-- The responder of a lane of a team, where it has not answered. -/
def State.answering (s : State) (t : Team) (lane : Nat) : Option (Nat × Nat) :=
  match t.census, t.lanes[lane]? with
  | some slot, some id =>
    match s.respOf t.vd slot id with
    | some r => if r.closed then none else some (slot, id)
    | none => none
  | _, _ => none

/-- The responses of the threads in ascending order, up to the first that is no responder or has responded. -/
def State.respondAll (s : State) (x : Iss) : List Nat → State × Option Nat
  | [] => (s, none)
  | i :: rest =>
    match s.answering x.f.t i with
    | none => (s, some i)
    | some (slot, id) =>
      let v : Option DWord := if x.pz x.h.a .n64 i then none else some (BitVec.ofNat 64 (x.val x.h.a .n64 i))
      State.respondAll (s.updResp x.f.t.vd slot id (fun r => { r with msg := some v, closed := true })) x rest

/-- R325: each thread's response is sent; at a thread that may not respond the beam takes the census fault. -/
def execRespond (h : Head) (s : State) : Out :=
  s.issue .respond h .none (fun x s =>
    if x.lanes.isEmpty then .sent s
    else if s.releaseHold x then .hold
    else match s.respondAll x x.lanes with
      | (s, some i) => .trapIn { cause := 0x0E, lane := i } s
      | (s, none) => .sent s)

/-- A selector without some threads: those that have ended take no part in it. -/
def Sel.drop (n : Sel) (mask : Word) : Sel :=
  { n with gm := n.gm &&& ~~~mask, targets := n.targets.filter (fun t => laneBit t.1 &&& mask == 0) }

/-- Does the running path of a flow have threads beyond a mask? -/
def Flow.runsOn (f : Flow) (mask : Word) : Bool := f.run.any (fun p => p.mask &&& ~~~mask != 0)

/-- Threads of a beam leave their paths as if they had exited (R310). -/
def Flow.leave (f : Flow) (mask : Word) : Flow :=
  let left := (f.paths.map (fun p => { p with mask := p.mask &&& ~~~mask })).filter (fun p => p.mask != 0)
  { f with paths := left, exited := f.exited ||| mask }

/-- Threads of a beam leave their paths, and what they held back pops (R241, R310). -/
def Flow.drop (f : Flow) (mask : Word) : Flow := (f.leave mask).settle

/-- A frozen context without some threads. The path that trapped runs on in it, for its selector, its wait and `%tpc` are that path's; what
may pop pops when the path next moves (log entry 117). -/
def Handler.drop (h : Handler) (mask : Word) : Handler :=
  { h with frozen := h.frozen.leave mask, nas := h.nas.map (·.drop mask), pend := h.pend.map (·.drop mask) }

/-- Has a flow threads beyond a mask? -/
def Flow.outlives (f : Flow) (mask : Word) : Bool := f.paths.any (fun p => p.mask &&& ~~~mask != 0)

/-- A beam without some threads. What a beam sleeps in and the selector that waits are its running path's: while that path has threads
left nothing pops under it before it moves again (log entry 117). Where its running path has none left, the beam, or its handler, goes on
with another; a handler that has lost all its threads is over with them. -/
def Beam.drop (b : Beam) (mask : Word) : Beam :=
  match b.flow.runsOn mask, b.handler with
  | true, h =>
    { b with flow := if b.sleep == .ready && b.pend.isNone then b.flow.drop mask else b.flow.leave mask
             latch := none, pend := b.pend.map (·.drop mask), handler := h.map (·.drop mask) }
  | false, none => { b with flow := b.flow.drop mask, latch := none, pend := none, sleep := .ready }
  | false, some h =>
    if b.flow.outlives mask then
      { b with flow := b.flow.drop mask, latch := none, pend := none, sleep := .ready, handler := some (h.drop mask) }
    else { b with flow := h.frozen.drop mask, latch := none, pend := none, sleep := .ready, handler := none, drain := [], fetch := false
                  emptyC := b.emptyC.filter (fun n => decide (n < 112)) }

/-- A lane of a beam ended as if it had exited; the beam ends with its last thread (R63, R310). -/
def State.dropLane (s : State) (core slot lane : Nat) : State :=
  match s.beam? core slot with
  | none => s
  | some b =>
    let b : Beam := { b.drop (laneBit lane) with missed := [] }
    let s := (s.setBeam core slot b).unhold { core := core, slot := slot, gen := b.gen }
    if b.flow.isOver then s.endBeam core slot else s

/-- Has a thread of a beam not ended yet? -/
def Beam.lives (b : Beam) (lane : Nat) : Bool := !(b.handler.elim b.flow (·.frozen)).exited.getLsbD lane

/-- The responders of a core whose threads have not ended, with their beams and lanes (R310). -/
def Core.responders (c : Core) : List (Nat × Nat × Nat) :=
  c.resps.flatMap (fun e => (List.range 32).filterMap (fun i =>
    match e.2.lanes[i]?, c.beams.look e.1 with
    | some id, some b => if b.lives i then some (id, e.1, i) else none
    | _, _ => none))

/-- R310: a responder's bound expires: where it has not responded it is an error, and its thread ends. -/
def execResponderBoundExpiry (id : Nat) (s : State) : Out :=
  let found : Option (Nat × Nat × Resp) := s.vds.findSome? (fun e => e.2.slots.findSome? (fun q =>
    (q.2.resps.find? (fun r => r.id == id)).map (fun r => (e.1, q.1, r))))
  let s := match found with
    | some (v, slot, r) => if r.closed then s else s.updResp v slot id (fun r => { r with msg := some none, closed := true })
    | none => s
  match s.cores.findSome? (fun c => (c.2.responders.find? (fun e => e.1 == id)).map (fun e => (c.1, e.2))) with
  | some (core, slot, lane) => .next (s.dropLane core slot lane)
  | none => .next s

/-- R311: a core sends its report once its scan has ended and the moves it waits for have been acknowledged. -/
def execDoneReport (vd slot core : Nat) (s : State) : Out :=
  match (s.vds.look vd).bind (·.slots.look slot) with
  | none => .next s
  | some c =>
    if c.scanned.contains core && !c.reported.contains core &&
        (c.waits.getD core []).all (fun i => !s.moves.any (·.id == i)) then
      .next (s.updCensus vd slot (fun c => { c with
        reported := c.reported ++ [core], expected := c.expected + c.counted.getD core 0 }))
    else .next s

/-- FP32 values of a response. -/
def respF (x : DWord) : Ext := Ty.f32.decode x.toNat

/-- The combining step: held value, arriving value (R313). -/
def combine (k : Comb) (h x : DWord) : DWord :=
  match k with
  | .addI64 => h + x
  | .addF32 => BitVec.ofNat 64 (Ty.f32.round .rne false (Ext.sum false [respF h, respF x]))
  | .maxF32 => if ((respF h).isNan && !(respF x).isNan) || Ext.lt (respF h) (respF x) then x else h
  | .minF32 => if ((respF h).isNan && !(respF x).isNan) || Ext.lt (respF x) (respF h) then x else h
  | .or => h ||| x
  | .count => h + if x = 0 then 0 else 1
  | .first => h

/-- What a response makes of the held value (R313). -/
def combineIn (k : Comb) (h : Option DWord) (x : DWord) : DWord :=
  match k, h with
  | .count, none => if x = 0 then 0 else 1
  | _, none => x
  | k, some h => combine k h x

/-- The combined value as the asker receives it: 32 bits and a canonical NaN under the float combines (R313). -/
def combined (k : Comb) (h : Option DWord) : DWord :=
  match k with
  | .addF32 => match h with | some v => BitVec.ofNat 64 (Ty.f32.round .rne false (respF v)) | none => 0
  | .maxF32 | .minF32 =>
    match h with | some v => BitVec.ofNat 64 (Ty.f32.round .rne false (respF v)) | none => 0x7FC0_0000
  | _ => h.getD 0

/-- R313: a response or an error reaches the router. -/
def execResponseCombine (vd slot id : Nat) (s : State) : Out :=
  match s.respOf vd slot id with
  | some r =>
    match r.msg with
    | none => .next s
    | some m =>
      .next (s.updCensus vd slot (fun c => { c with
        resps := c.resps.map (fun r => if r.id = id then { r with msg := none, closed := true } else r)
        held := match m with | some x => some (combineIn c.comb c.held x) | none => c.held
        answers := match m with | some _ => c.answers + 1 | none => c.answers
        errors := match m with | some _ => c.errors | none => c.errors + 1 }))
  | none => .next s

/-! ### Opening and closing (R307, R312, R324) -/

/-- R324: a census started, or refused. -/
def execSolicit (h : Head) (m : Comb) (s : State) : Out :=
  s.issue .solicit h (.c m) (fun x s =>
    if x.lanes.isEmpty then .sent s
    else
      let hi := (x.f.b.reg h.c 0 1).val.toNat % 16
      match x.f.b.decl.resps[hi]?, x.f.b.resp with
      | some entry, none =>
        if s.releaseHold x then .hold
        else
          let c : Census := {
            vd := x.f.t.vd, launch := x.f.t.launch, beam := x.ref, names := x.written, comb := m
            key := BitVec.ofNat 64 (x.val h.a .n64 0), mask := BitVec.ofNat 64 (x.val h.b .n64 0)
            arg := (x.f.b.reg h.c 0 0).val, entry := entry, decl := x.f.b.decl, scanned := [], waits := [], reported := []
            counted := [], expected := 0, resps := [], held := none, answers := 0, errors := 0 }
          .sent ((s.updBeam x.f.core x.f.slot (fun b => b.empty x.written)).updVd x.f.t.vd (fun d =>
            { d with waiting := d.waiting ++ [c] }))
      | _, _ => .send (x.outWords 0 [{}, {}, {}, { val := 0xFFFF_FFFF }]) s)

/-- R307: a waiting solicit takes the lowest free slot. DESIGN CHOICE (log entry 180): the solicits of all dies of a virtual device wait in one
order, that of their issue. -/
def execCensusSlotTaken (vd : Nat) (s : State) : Out :=
  match s.vds.look vd with
  | none => .next s
  | some d =>
    match d.waiting, d.slots.free 64 with
    | c :: rest, some slot => .next (s.updVd vd (fun d => { d with waiting := rest, slots := d.slots.put slot c }))
    | _, _ => .next s

/-- May a census close (R312)? Every report is in, and a response or error for every responder that they count. One that no report
counts is waited for too (log entry 121). -/
def Census.closes (c : Census) (cores : List Nat) : Bool :=
  cores.all c.reported.contains && c.resps.all (fun r => r.closed && r.msg.isNone) && decide (c.expected ≤ c.answers + c.errors)

/-- The answered bit of a slot cleared. -/
def DirEntry.clearBit (e : DirEntry) (slot : Nat) : DirEntry := { e with answered := e.answered &&& ~~~(1#64 <<< slot) }

/-- Is a spawn credited to the source of a move for a census, by an ack that has not come in? The census stays open for it: no credit is
tagged with a census that has closed (R311, R314). -/
def State.creditDue (s : State) (v slot : Nat) : Bool :=
  s.moves.any (fun m => m.vd == v && (match m.st with | .acked _ _ credits => credits.contains slot | _ => false))

/-- The commits of a virtual device that were sent with an answered bit and are still to be installed (R312). -/
def State.sentWith (s : State) (v slot : Nat) : List Nat :=
  (s.moves.filter (fun m => m.vd == v && (match m.st with | .committed _ e => e.answered.getLsbD slot | _ => false))).map (·.id)

/-- Is a commit still to be installed? -/
def State.uninstalled (s : State) (id : Nat) : Bool :=
  s.moves.any (fun m => m.id == id && (match m.st with | .committed _ _ => true | _ => false))

/-- An answered bit cleared in every entry of a virtual device, the entries in flight among them (R312). -/
def State.clearAnswered (s : State) (v : Nat) (cores : List Nat) (slot : Nat) : State :=
  { s with
    cores := s.cores.map (fun e => if cores.contains e.1 then
      (e.1, { e.2 with dir := e.2.dir.map (fun q => (q.1, q.2.clearBit slot)) }) else e)
    moves := s.moves.map (fun m => if m.vd = v then
      { m with st := match m.st with | .committed i e => .committed i (e.clearBit slot) | st => st } else m) }

/-- A census whose bits are cleared ends: its result registers fill, and its slot is free (R312). -/
def State.endCensus (s : State) (v slot : Nat) (c : Census) : State :=
  let x := (combined c.comb c.held).toNat
  let w (n : Nat) : Cell32 := { val := BitVec.ofNat 32 n }
  let s := s.deliverOrDrop v c.beam c.names (c.names.words 0 [w x, w (x / 2 ^ 32), w c.answers, w c.errors])
  let s := s.seeNow c.beam.core
  (s.updVd v (fun d => { d with slots := d.slots.del slot })).settleLaunch v c.launch

/-- R312: the census closes: its bits are cleared, every commit that was sent with one is installed, its result registers fill, and its
slot is free. -/
def execCensusClose (vd slot : Nat) (s : State) : Out :=
  match s.vds.look vd with
  | none => .next s
  | some d =>
    match d.slots.look slot with
    | none => .next s
    | some c =>
      match c.clearing with
      | some ids => if ids.any s.uninstalled then .next s else .next (s.endCensus vd slot c)
      | none =>
        if !c.closes (s.coresOf d) || s.creditDue vd slot then .next s
        else
          let ids := s.sentWith vd slot
          let s := s.clearAnswered vd (s.coresOf d) slot
          if ids.isEmpty then .next (s.endCensus vd slot c)
          else .next (s.updCensus vd slot (fun c => { c with clearing := some ids }))

/-! ### Directory instructions (R319 to R323) -/

/-- The virtual device of the issuing beam. -/
def State.vdOf (s : State) (x : Iss) : Option VDev := s.vds.look x.f.t.vd

/-- One lane of `dirput`: its result, and the state. -/
def State.putOne (s : State) (x : Iss) (i : Nat) : Nat × State :=
  match (s.core x.f.core).freeEntry with
  | none => (0xFFFF_FFFF, s)
  | some k =>
    let e : DirEntry := {
      answered := 0, state := 1, addr := BitVec.ofNat 56 (x.val x.h.b .n64 i), len := (x.f.b.reg x.h.c i 1).val
      tag := (x.f.b.reg x.h.c i 0).val, key := BitVec.ofNat 64 (x.val x.h.a .n64 i) }
    (k, ((s.setEntry x.f.core k e).testInstall x.f.t.vd x.f.core k false).2)

/-- Directory operations of a lane after another, with a result each (R306). DEDUCED (log entry 194): all in one step. -/
def Iss.serve (x : Iss) (f : State → Nat → Nat × State) (s : State) : RegOut × State :=
  x.lanes.foldl (fun acc i =>
    let r := f acc.2 i
    (acc.1.join (x.out .n32 i r.1 false), r.2)) ({}, s)

/-- R320: entries installed. -/
def execDirput (h : Head) (s : State) : Out :=
  s.issue .dirput h .none (fun x s =>
    if x.lanes.isEmpty then .sent s
    else if s.releaseHold x then .hold
    else
      let r := x.serve (fun s i => s.putOne x i) s
      .write r.1 r.2)

/-- One lane of `dirdel`. -/
def State.delOne (s : State) (x : Iss) (i : Nat) : Nat × State :=
  let k := x.val x.h.a .n32 i % 256
  match ((s.core x.f.core).entry k).state with
  | 1 => (0, s.setEntry x.f.core k {})
  | 2 => (2, s)
  | _ => (1, s)

/-- R321: entries freed. -/
def execDirdel (h : Head) (s : State) : Out :=
  s.issue .dirdel h .none (fun x s =>
    let r := x.serve (fun s i => s.delOne x i) s
    .write r.1 r.2)

/-- R323: entries read. -/
def execDirq (h : Head) (s : State) : Out :=
  s.issue .dirq h .none (fun x s =>
    .send (x.each (fun i =>
      let b := ((s.core x.f.core).entry (x.val h.a .n32 i % 256)).bits
      x.outWords i ((List.range 8).map (fun k => { val := BitVec.ofNat 32 (b / 2 ^ (32 * k)) })))) s)

/-- One lane of `dirmove`: its status where it is known at once, or a move started (R314, R322). -/
def State.moveOne (s : State) (x : Iss) (d : VDev) (fill i : Nat) : Option Nat × State :=
  let k := x.val x.h.a .n32 i % 256
  let dst := x.val x.h.b .n32 i % 2 ^ 32
  let e := (s.core x.f.core).entry k
  if e.state ≠ 1 then (some 1, s)
  else if !(s.coresOf d).contains dst then (some 3, s)
  else if dst = x.f.core then (some (4 + 256 * k), s)
  else
    let (id, s) := s.name
    let m : Move := {
      id := id, vd := x.f.t.vd, src := x.f.core, idx := k, dst := dst
      addr := match x.h.c with | .none => none | o => some (BitVec.ofNat 56 (x.val o .n64 i))
      beam := x.ref, lane := some i, fill := fill, st := .requested }
    (none, { (s.setEntry x.f.core k { e with state := 2 }) with moves := s.moves ++ [m] })

/-- R322: moves started, one for each thread. -/
def execDirmove (h : Head) (s : State) : Out :=
  s.issue .dirmove h .none (fun x s =>
    match s.vdOf x with
    | none => .hold
    | some d =>
      if x.lanes.isEmpty then .sent s
      else if s.releaseHold x then .hold
      else
        let (fid, s) := s.name
        let ns := x.written
        let r := x.lanes.foldl (fun (acc : RegOut × State) i =>
          let q := acc.2.moveOne x d fid i
          (match q.1 with
            | some w => acc.1.join (ns.words i [{ val := BitVec.ofNat 32 w }])
            | none => acc.1, q.2)) ({}, s)
        .sent ((r.2.updBeam x.f.core x.f.slot (fun b => b.empty ns)).addFill
          { id := fid, beam := x.ref, names := ns, out := r.1, prism := none, gop := none, drop := some x.f.t.vd }))

/-! ### Moves (R314) -/

/-- A move changed. -/
def State.updMove (s : State) (id : Nat) (f : Move → Move) : State :=
  { s with moves := s.moves.map (fun m => if m.id = id then f m else m) }

/-- A move ended with a status: its lane's status is in, and D fills with the last lane's (R322); it is dropped and counted
where the beam is gone, once for the instruction (log entry 40). -/
def State.endMove (s : State) (m : Move) (code : Nat) : State :=
  let s := { s with moves := s.moves.filter (·.id != m.id) }
  match s.fills.find? (·.id == m.fill) with
  | none => s
  | some f =>
    let f := { f with out := f.out.join (f.names.words (m.lane.getD 0) [{ val := BitVec.ofNat 32 code }]) }
    if s.moves.any (fun k => k.fill == m.fill) then { s with fills := s.fills.map (fun g => if g.id = f.id then f else g) }
    else ({ s with fills := s.fills.filter (·.id != f.id) }).deliverOrDrop m.vd f.beam f.names f.out

/-- R314, step 2: the destination reserves its lowest free entry, or refuses. -/
def execMoveReserve (id : Nat) (s : State) : Out :=
  match s.moves.find? (·.id == id) with
  | some m =>
    if m.st != .requested then .next s
    else match (s.core m.dst).freeEntry with
      | some i => .next ((s.setEntry m.dst i { state := 3 }).updMove id (fun m => { m with st := .granted i }))
      | none => .next (s.updMove id (fun m => { m with st := .refused }))
  | none => .next s

/-- R314, step 3: the source commits the entry, or takes it back. -/
def execMoveCommit (id : Nat) (s : State) : Out :=
  match s.moves.find? (·.id == id) with
  | some m =>
    let e := (s.core m.src).entry m.idx
    match m.st with
    | .refused => .next ((s.setEntry m.src m.idx { e with state := 1 }).endMove m 2)
    | .granted i =>
      .next ((s.setEntry m.src m.idx {}).updMove id (fun m => { m with
        st := .committed i { e with addr := m.addr.getD e.addr, state := 1 } }))
    | _ => .next s
  | none => .next s

/-- R314, step 4: the destination installs the entry and tests it; the ack carries the spawns to credit. -/
def execMoveInstall (id : Nat) (s : State) : Out :=
  match s.moves.find? (·.id == id) with
  | some m =>
    match m.st with
    | .committed i e =>
      let r := (s.setEntry m.dst i e).testInstall m.vd m.dst i true
      .next (r.2.updMove id (fun m => { m with st := .acked i e r.1 }))
    | _ => .next s
  | none => .next s

/-- R314, step 5: the source counts the credited spawns, and the status is in. -/
def execMoveAck (id : Nat) (s : State) : Out :=
  match s.moves.find? (·.id == id) with
  | some m =>
    match m.st with
    | .acked i _ credits =>
      let s := credits.foldl (fun s slot => s.updCensus m.vd slot (fun c =>
        { c with counted := c.counted.put m.src (c.counted.getD m.src 0 + 1) })) s
      .next (s.endMove m (256 * i))
    | _ => .next s
  | none => .next s

end Sys2Proof.Machine
end

