-- ==== Sys2Proof/Machine/Control.lean ====
section
/-!
DEFINITION. Group 0x9: control instructions and the instruction store (R254 to R263), with the traps of an issue that finds
no legal or resident word (R79, R259).
-/
namespace Sys2Proof.Machine

/-- R255: no effect of its own. -/
def execNop (h : Head) (s : State) : Out := s.issue .nop h .none (fun _ s => .sent s)

/-- The address that a `joinat` names. -/
def Iss.joinAddr (x : Iss) : Int := offsetIdx x.pc x.h.imm

/-- The entry that a `joinat` pushes (R256). -/
def Iss.joinEntry (x : Iss) : StackEntry :=
  { call := false, mask := x.f.p.mask, addr := codeAddr (ovlOf x.pc) x.joinAddr.toNat, fmt := x.f.p.fmt, part := x.f.p.part
    parent := x.f.p.top }

/-- R256: a joinat entry pushed, which becomes the top entry of the issuing path. -/
def execJoinat (h : Head) (s : State) : Out :=
  s.issue .joinat h .none (fun x s =>
    if x.lanes.isEmpty then .sent s
    else if !idxOk x.joinAddr then .trap { cause := 0x02, reason := 0x11 }
    else match x.f.b.flow.push x.joinEntry with
      | none => .trap { cause := 0x02, reason := 0x17 }
      | some (e, f) =>
        .sent (s.updBeam x.f.core x.f.slot (fun b => { b with flow := f.setRun (fun p => { p with top := some e }) })))

/-- R257: a landing pad has no effect. -/
def execLpad (h : Head) (s : State) : Out := s.issue .lpad h .none (fun _ s => .sent s)

/-- The number that `brk` and `trap` report: the immediate, or 0 (R263, R372). -/
def Iss.number (x : Iss) : DWord :=
  match x.h.a with
  | .imm => BitVec.ofNat 64 x.h.imm.toNat
  | _ => 0

/-- R263: the breakpoint trap, after completion. -/
def execBrk (h : Head) (s : State) : Out :=
  s.issue .brk h .none (fun x s =>
    if x.lanes.isEmpty then .sent s else .after { cause := 0x0F, addr := x.number, done := true } s)

/-! ### Overlays (R259 to R262) -/

/-- The slot of a core that holds or loads an overlay. -/
def Core.slotWith (c : Core) (ovl : Nat) : Option Nat := (c.slotOf ovl).orElse (fun _ => c.loadingIn ovl)

/-- The status of an `ovl` (R261). -/
def ovlStatus (code slot : Nat) : Nat := code + 2 ^ 8 * slot

/-- R260: an overlay load started, or its status where that is known at issue. It reads its image after the accesses that come before
it in its thread's order (R195, R198). -/
def execOvl (h : Head) (s : State) : Out :=
  s.issue .ovl h .none (fun x s =>
    let ovl := x.val h.a .n32 0 % 256
    let slot := x.val h.b .n32 0 % 4
    let c := s.core x.f.core
    let answer (code k : Nat) : Res := .send (x.outWords 0 [{ val := BitVec.ofNat 32 (ovlStatus code k) }]) s
    if x.lanes.isEmpty then .sent s
    else if !(s.undone x x.threads).isEmpty || !(s.copiesDue x x.threads).isEmpty || c.slotLoading slot then .hold
    else match c.slotWith ovl with
      | some k => if k = slot then answer 0 0 else answer 3 k
      | none =>
        let loaded : Bool := match s.vds.look x.f.t.vd with | some d => (d.overlays.look ovl).isSome | none => false
        if !loaded then answer 2 0
        else
          .sent ((s.updBeam x.f.core x.f.slot (fun b => b.empty x.written)).startLoad x.f.core slot x.f.t.vd ovl (some x.ref)
            x.written false))

/-! ### An overlay load ends (R260, R261) -/

/-- The bytes of an overlay image. -/
def Overlay.size (o : Overlay) : Nat := 12 * o.count

/-- What a read of an image gives: its bytes, the code of R261 of its failure, the address of a page that has to be walked first (R193), or
that a port holds it (R392). -/
inductive Image where
  | bytes (bs : List Byte)
  | fail (code : Nat)
  | walk (va : Nat)
  | held

/-- The place of n bytes of an image by the translations at hand, those that walks have given the load among them (R192, R193). -/
def State.imagePlace (s : State) (l : OvlLoad) (va n : Nat) : Option Place × State :=
  match cached l.trans l.vd va with
  | some t => (some (s.place l.vd t va n { r := true }), s)
  | none => s.resolveHeld l.core l.vd va n { r := true } l.missed

/-- A part of an image read. -/
def State.readPart (s : State) (l : OvlLoad) (va n : Nat) : Image × State :=
  match s.imagePlace l va n with
  | (none, s) => (.walk va, s)
  | (some (.here pa), s) =>
    if s.portHolds l.vd 0 pa then (.held, s)
    else
      let s := s.found l.vd pa n
      (if s.linePoisoned pa n then .fail 4 else .bytes (s.readBytes pa n), s)
  | (some (.peer dev), s) =>
    if s.portHolds l.vd dev va then (.held, s)
    else
      let (k, s) := s.take
      (.bytes ((List.range n).map (Config.remoteByte k)), s)
  | (some (.fail _), s) => (.fail 1, s)

/-- n bytes read line by line, in ascending order, up to the first line that gives none. -/
def State.readImage (s : State) (l : OvlLoad) (va n : Nat) : Image × State :=
  (lineParts va n).foldl (fun acc p =>
    match acc with
    | (.bytes bs, s) =>
      match s.readPart l p.1 p.2 with
      | (.bytes b, s) => (.bytes (bs ++ b), s)
      | r => r
    | r => r) (.bytes [], s)

/-- The instruction words of an image (R51). -/
def wordsOf (n : Nat) (bs : List Byte) : List InsnWord := (List.range n).map (fun i => wordOfBytes (bs.drop (12 * i)))

/-- The image of a load read: that of the overlay as it stood at issue, where one that is not loaded has code 2 (R260, R261). -/
def State.loadImage (s : State) (l : OvlLoad) : Image × State :=
  match l.img with
  | none => (.fail 2, s)
  | some o => s.readImage l o.image o.size

/-- The slot that the bytes of a load's image make. -/
def Overlay.slot (o : Overlay) (ovl : Nat) (bs : List Byte) : Slot :=
  { overlay := some ovl, words := wordsOf o.count bs, image := o.image, digest := o.digest }

/-- A load that a handler waited for has ended (R369): the beam issues, or ends where the load failed. -/
def State.fetched (s : State) (l : OvlLoad) (code : Nat) : State :=
  match l.beam with
  | none => s
  | some r =>
    match s.ref? r with
    | none => s
    | some b =>
      if b.fetch && l.fetch then
        if code = 0 then s.setBeam r.core r.slot { b with fetch := false } else s.endInTrap r.core r.slot code
      else s

/-- The entry overlay of a launch has been seen to on a core: it is tried again for a later team there where its load has failed (R259). -/
def State.enter (s : State) (v n core : Nat) (failed : Bool) : State :=
  s.updLaunch v n (fun l => { l with retry := if failed then markIn l.retry core else l.retry.filter (· != core) })

/-- A load ends with the slot that it leaves and a code of R261. What an ended beam's `ovl` still read may have held back a barrier
(R202). -/
def State.endLoad (s : State) (l : OvlLoad) (slot : Slot) (code : Nat) : State :=
  let s := { s with ovls := s.ovls.filter (·.id != l.id) }.seeNow l.core
  let s := s.updCore l.core (fun c => { c with slots := c.slots.put l.slot slot })
  let s := match l.entry, (s.core l.core).team with
    | some n, some t => if l.team == some t.gen then s.enter l.vd n l.core (code != 0) else s
    | _, _ => s
  let s := (s.updTeam l.core none (fun t => if l.team == some t.gen then { t with entry := false } else t)).fetched l code
  match l.beam with
  | some r =>
    if l.fetch then s
    else
      let s := s.deliverOrDrop l.vd r l.names (l.names.words 0 [{ val := BitVec.ofNat 32 (ovlStatus code 0) }])
      if (s.ref? r).isNone then s.resettle l.core else s
  | none => s

/-- A load that begins or joins a walk for an address of its image, and waits for it (R193). -/
def State.loadWalks (s : State) (l : OvlLoad) (va : Nat) : State :=
  let s := s.wantWalk l.core l.vd va []
  { s with ovls := s.ovls.map (fun k => if k.id = l.id then { k with wait := some va } else k) }

/-- An `ovl` of a launch has read a poisoned line: one count of poison for it (R387). -/
def State.countImage (s : State) (l : OvlLoad) (code : Nat) : State :=
  match code, l.launch with
  | 4, some n => if l.counted then s else s.countPoison l.vd n
  | _, _ => s

/-- R260: an overlay load reads its image and ends, or waits for a page walk. Loads of one core are performed in issue order (R262). -/
def execOvlLoadComplete (id : Nat) (s : State) : Out :=
  match s.ovls.find? (·.id == id) with
  | none => .next s
  | some l =>
    if l.wait.isSome || (s.ovls.find? (·.core == l.core)).any (·.id != id) then .next s
    else match s.loadImage l with
      | (.bytes bs, t) => .next (t.endLoad l ((l.img.map (fun o => o.slot l.ovl bs)).getD {}) 0)
      | (.fail code, t) => .next ((t.countImage l code).endLoad l {} code)
      | (.walk va, t) => .next (t.loadWalks l va)
      | (.held, _) => .next s

/-- Is the word at a code address one that is fetched again before it issues (R383)? -/
def Core.staleAt (c : Core) (pc : Word) : Bool :=
  match c.slotOf (ovlOf pc) with
  | some k => (c.slots.getD k {}).stale.contains (idxOf pc)
  | none => false

/-- The word of a beam that comes to issue fetched again from the image: the word as the image holds it now, or an empty slot where the
read fails (R259, R383); an issue that has met poison there counts with its fault (R387). -/
def State.refetch (s : State) (core slot : Nat) (b : Beam) (vd : Nat) (pc : Word) : State :=
  match (s.core core).slotOf (ovlOf pc) with
  | none => s
  | some k =>
    let x := (s.core core).slots.getD k {}
    let i := idxOf pc
    let r : BeamRef := { core := core, slot := slot, gen := b.gen }
    let l : OvlLoad := {
      id := 0, core := core, slot := k, vd := vd, ovl := ovlOf pc, beam := some r, names := {}, fetch := false, missed := b.missed }
    let put (t : State) (y : Slot) : State := t.updCore core (fun c => { c with slots := c.slots.put k y })
    match s.readImage l (x.image + 12 * i) 12 with
    | (.bytes bs, t) => put t { x with words := x.words.set i (wordOfBytes bs), stale := x.stale.filter (· != i) }
    | (.fail code, t) => (put t {}).updBeam core slot (fun b => { b with found := b.found || code == 4 })
    | (.walk va, t) => t.wantWalk core vd va [(r, va)]
    | (.held, _) => s

/-- R259: the command processor loads the entry overlay into slot 0 before a team that was placed waiting for it issues. Where another slot
is loading that overlay, the load ends at once with CODE 0x3 of R260, which leaves slot 0 empty. -/
def execEntryOverlayLoad (core : Nat) (s : State) : Out :=
  match (s.core core).team with
  | none => .next s
  | some t =>
    if !t.entry then .next s
    else
      let ovl : Nat := match (s.launch? t.vd t.launch).bind (fun l => (s.vds.look t.vd).bind (fun d => d.kernels.look l.handle)) with
        | some k => ovlOf k.entry
        | none => 0
      let c := s.core core
      if (c.slotOf ovl).isSome then .next ((s.enter t.vd t.launch core false).updTeam core none (fun t => { t with entry := false }))
      else if c.slotLoading 0 then .next s
      else if (c.loadingIn ovl).isSome then
        .next (((s.updCore core (fun c => { c with slots := c.slots.put 0 {} })).enter t.vd t.launch core true).updTeam core none
          (fun t => { t with entry := false }))
      else .next (s.startLoad core 0 t.vd ovl none {} false (some t.gen) (some t.launch))

/-! ### Issues without a word (R79, R259) -/

/-- R79: the illegal-instruction trap of a word that decodes to no instruction of the map. -/
def execIllegalInstruction (reason : BitVec 8) (s : State) : Out :=
  match s.front with
  | none => .refused .noIssuingBeam
  | some f => .next ((s.detected f).takeTrap f.core f.slot { cause := 0x01, reason := reason.toNat } f.p.pc none)

/-- R259: the fault of an issue at a code address whose overlay is not resident. -/
def execNonresidentOverlayIssue (s : State) : Out :=
  match s.front with
  | none => .refused .noIssuingBeam
  | some f => .next ((s.detected f).takeTrap f.core f.slot { cause := 0x02, reason := 0x18 } f.p.pc none)

end Sys2Proof.Machine
end

