-- ==== Sys2Proof/Machine/Matrix.lean ====
section
/-!
DEFINITION. Group 0x3 and `fmt`: matrix instructions (R134 to R174), with deviation telemetry (R104 to R107).
-/
namespace Sys2Proof.Machine

/-! ### Exceptions (R144, R145) -/

/-- The `%ekind` of SHAPE. -/
def shapeExc (sub : Nat) : Word := BitVec.ofNat 32 (3 + 16 * sub)

/-- The `%ekind` of META. -/
def metaExc (sub index : Nat) : Word := BitVec.ofNat 32 (4 + 16 * sub + 256 * index)

/-- The `%ekind` of SING. -/
def singExc (index : Nat) : Word := BitVec.ofNat 32 (1 + 256 * index)

/-- The `%ekind` of NPD. -/
def npdExc (index : Nat) : Word := BitVec.ofNat 32 (2 + 256 * index)

/-- What a thread's matrix instruction comes to: an exception, or its destinations. -/
inductive MatOut where
  | exc (kind : Word)
  | ok (o : RegOut)

/-- The first condition that holds. -/
def firstExc (l : List (Bool × Word)) : Option Word := (l.find? (·.1)).map (·.2)

/-! ### The FMT of the issuing path (R139, R140) -/

/-- The type code in five bits of FMT. -/
def fmtTy (fmt : Word) (lo : Nat) : Ty := (Ty.ofCode (bitsOf fmt.toNat lo 5)).getD .i32

/-- The default rounding. -/
def fmtRnd (fmt : Word) : Rnd := (Rnd.ofCode (bitsOf fmt.toNat 14 3)).getD .rne

/-- N and M of the sparsity ratio; none when sparsity is off. -/
def fmtRatio (fmt : Word) : Option (Nat × Nat) :=
  match bitsOf fmt.toNat 12 2 with
  | 1 => some (2, 4)
  | 2 => some (1, 4)
  | 3 => some (2, 8)
  | _ => none

/-- Rows of the kept unit. -/
def fmtRows (fmt : Word) : Nat := if fmt.getLsbD 11 then 8 else 4

/-- The mode of R154. -/
def Iss.mode (x : Iss) (r : Rnd) : Rnd := if r == .rfmt then fmtRnd x.f.p.fmt else r

/-! ### Operands and results -/

/-- The matrix register that an operand names in a lane. -/
def Iss.mat (x : Iss) (o : Opnd) (lane : Nat) : MReg :=
  match o with
  | .m n => x.f.b.mreg lane n.toNat
  | _ => {}

/-- The element count. -/
def MReg.count (r : MReg) : Nat := r.rows * r.cols

/-- The values of a matrix by rows (R136). -/
def MReg.vals (r : MReg) : List (List Ext) :=
  (List.range r.rows).map (fun i => (List.range r.cols).map (fun j => imageElem r.tag r.img (i * r.cols + j)))

/-- The element codes of a matrix of a scalar tag, in row-major order. -/
def MReg.codes (r : MReg) : List Nat := (List.range r.count).map (imageCode r.tag r.img)

/-- The columns of rows. -/
def columns (c : Nat) (rows : List (List Ext)) : List (List Ext) :=
  (List.range c).map (fun j => rows.map (fun r => (r[j]?).getD .nan))

/-- D written in a lane. -/
def Iss.outM (x : Iss) (lane : Nat) (r : MReg) : RegOut :=
  match x.h.d with
  | .m n => { m := [(lane + 32 * n.toNat, r)] }
  | _ => {}

/-- The conditions of an entry, then those of its result (R137, R154). -/
def Iss.resultOr (x : Iss) (checks : List (Bool × Word)) (t : Ty) (r c : Nat) : Option Word :=
  firstExc (checks ++ [(!t.holds (r * c), shapeExc 3), (decide (x.f.b.decl.mcap < t.slots (r * c)), shapeExc 4)])

/-- A result of a shape and tag, unless a condition holds. -/
def Iss.give (x : Iss) (lane : Nat) (checks : List (Bool × Word)) (t : Ty) (r c : Nat) (img : List Byte) (pz : Bool) : MatOut :=
  match x.resultOr checks t r c with
  | some w => .exc w
  | none => .ok (x.outM lane { rows := r, cols := c, tag := t, img := img, pz := pz })

/-! ### The prism (R142 to R147) -/

/-- Is a prism instruction of the quadrant still executing (R142)? -/
def State.prismBusy (s : State) (x : Iss) : Bool :=
  s.fills.any (fun f => f.prism.isSome && f.beam.core == x.f.core && f.beam.slot / 16 == x.f.slot / 16)

/-- Does a prism instruction of the beam that has not completed name one of the word's m registers (R155)? -/
def State.mHeld (s : State) (x : Iss) : Bool :=
  let ms := [x.h.d, x.h.a, x.h.b, x.h.c].filterMap (fun o => match o with | .m n => some n.toNat | _ => none)
  s.fills.any (fun f => f.prism.isSome && f.beam == x.ref && ms.any f.names.m.contains)

/-- The `%emask` after an instruction (R145). -/
def emaskAfter (old ran exc : Word) : Word := (old &&& ~~~ran) ||| exc

/-- What a beam's `%emask` and `%ekind` become. -/
def Beam.record (b : Beam) (ran exc : Word) (kinds : List (Nat × Word)) : Beam :=
  { b with emask := emaskAfter b.emask ran exc, ekind := putAll b.ekind kinds }

/-- The lanes that raised an exception. -/
def excMask (rs : List (Nat × MatOut)) : Word :=
  maskOf (fun i => rs.any (fun r => r.1 == i && match r.2 with | .exc _ => true | .ok _ => false))

/-- The `%ekind` of each executing lane. -/
def excKinds (rs : List (Nat × MatOut)) : List (Nat × Word) :=
  rs.map (fun r => (r.1, match r.2 with | .exc w => w | .ok _ => 0))

/-- The results of the lanes that raised none. -/
def matOuts (rs : List (Nat × MatOut)) : RegOut := RegOut.all (rs.map (fun r => match r.2 with | .exc _ => {} | .ok o => o))

/-- Is the matrix trap on for the issuing path? -/
def Iss.mte (x : Iss) : Bool := x.f.p.fmt.getLsbD 9

/-- A prism instruction issued: its results are in flight, and under MTE the beam issues nothing until it completes (R142,
R146). `empties` is false for the instructions of R155 that empty nothing; `met` says that it has read poison beside its registers (R387). -/
def State.prismOp (s : State) (x : Iss) (empties : Bool) (res : Nat → MatOut) (sample : Option (BitVec 256)) (met : Bool := false) : Res :=
  if x.lanes.isEmpty then .sent s
  else
    let rs := x.lanes.map (fun i => (i, res i))
    let out := matOuts rs
    let s := s.meets x (out.marked || met)
    let (id, s) := s.name
    let s := if empties then s.updBeam x.f.core x.f.slot (fun b => b.empty x.written) else s
    let s := s.addFill {
      id := id, beam := x.ref, names := x.written, out := out, gop := none
      prism := some { pc := x.pc, mask := x.gm, exc := excMask rs, kinds := excKinds rs, mte := x.mte
                      sample := sample, vd := x.f.t.vd, launch := x.f.t.launch
                      team := if x.f.b.resp.isNone then some x.f.t.gen else none
                      path := x.f.p.mask, handled := x.f.b.handler.isSome } }
    if x.mte then .sleep .prism s else .sent s

/-- A prism instruction of layout A: it holds while the prism is busy. -/
def prism (op : Op) (h : Head) (m : ModA) (empties : Bool) (res : Iss → Nat → MatOut) (s : State) : Out :=
  s.issue op h (.a m) (fun x s => if s.prismBusy x then .hold else s.prismOp x empties (res x) none)

/-! ### Shaping and element moves (R153, R157 to R161) -/

/-- Rows and columns of a shape word. -/
def shapeOf (w : Nat) : Nat × Nat := (w % 32, w / 256 % 32)

/-- Is a shape admitted (R153)? -/
def shapeOk (r c : Nat) : Bool :=
  (r == 0 && c == 0) || (decide (1 ≤ r) && decide (r ≤ 16) && decide (1 ≤ c) && decide (c ≤ 16))

/-- The image bytes kept by `mshape`: bytes beyond the old length are zero. -/
def reshaped (img : List Byte) (n : Nat) : List Byte := (img ++ List.replicate n 0).take n

/-- `mshape` for one thread. -/
def mshapeOf (m : ModA) (x : Iss) (i : Nat) : MatOut :=
  let sh := shapeOf (x.val x.h.a .n32 i)
  let d := x.mat x.h.d i
  x.give i [(!shapeOk sh.1 sh.2, shapeExc 1)] m.ty sh.1 sh.2 (reshaped d.img (m.ty.imageBytes (sh.1 * sh.2))) (x.marked i)

/-- R157: shape and tag set, bytes reinterpreted; completed at once, without the prism (R142, R155). -/
def execMshape (h : Head) (m : ModA) (s : State) : Out :=
  s.issue .mshape h (.a m) (fun x s =>
    if s.mHeld x then .hold
    else if x.lanes.isEmpty then .sent s
    else
      let rs := x.lanes.map (fun i => (i, mshapeOf m x i))
      let s := s.updBeam x.f.core x.f.slot (fun b => b.record x.gm (excMask rs) (excKinds rs))
      if x.mte && excMask rs != 0 then
        .after { cause := 0x05, done := true } (s.updBeam x.f.core x.f.slot (fun b => b.write (matOuts rs)))
      else .write (matOuts rs) s)

/-- `mzero` for one thread. -/
def mzeroOf (m : ModA) (x : Iss) (i : Nat) : MatOut :=
  let sh := shapeOf (x.val x.h.a .n32 i)
  x.give i [(!shapeOk sh.1 sh.2, shapeExc 1)] m.ty sh.1 sh.2 (List.replicate (m.ty.imageBytes (sh.1 * sh.2)) 0) false

/-- R157: every element zero. -/
def execMzero (h : Head) (m : ModA) (s : State) : Out := prism .mzero h m false (mzeroOf m) s

/-- The image of n copies of the value that `mfill` reads (R158); its padding bits are zeros (log entry 151). -/
def fillImage (t : Ty) (mode : Rnd) (sat : Bool) (n v : Nat) : List Byte :=
  if t.isInt then imageOfCodes t (List.replicate n (t.fit sat (Ty.i32.val v)))
  else if t == .f64 then imageOfCodes t (List.replicate n (t.round mode sat (Ty.f64.decode v)))
  else imageOf t mode sat (List.replicate n (Ty.f32.decode v))

/-- The type that `mfill` reads A as. -/
def fillTy (t : Ty) : Ty := if t.isInt then .i32 else if t == .f64 then .f64 else .f32

/-- `mfill` for one thread. -/
def mfillOf (m : ModA) (x : Iss) (i : Nat) : MatOut :=
  let d := x.mat x.h.d i
  x.give i [(d.count == 0, shapeExc 0)] m.ty d.rows d.cols
    (fillImage m.ty (x.mode m.rnd) m.sat d.count (x.val x.h.a (fillTy m.ty) i)) (x.f.b.poisoned x.e.a x.h.a i)

/-- R158: every element one value. -/
def execMfill (h : Head) (m : ModA) (s : State) : Out := prism .mfill h m false (mfillOf m) s

/-- May rows of c elements be accessed with a stride (R159)? -/
def stridedOk (t : Ty) (c : Nat) : Bool := !t.isBlock && c * t.width % 8 == 0 && (t.width != 6 || c % 4 == 0)

/-- The runs of scratchpad bytes of a matrix of a shape and tag: offset and length (R159). -/
def matRuns (t : Ty) (r c a stride : Nat) : List (Nat × Nat) :=
  if stride = 0 then [(a, t.imageBytes (r * c))]
  else (List.range r).map (fun i => (a + i * stride, c * t.width / 8))

/-- The scratchpad-access fault of a matrix access (R156). -/
def Iss.matFault (x : Iss) (lane : Nat) (a stride : Nat) (runs : List (Nat × Nat)) : Option Trap :=
  if a % 4 ≠ 0 || stride % 4 != 0 then some { cause := 0x06, lane := lane, addr := BitVec.ofNat 64 a }
  else
    let bad := (runs.filter (fun r => !x.f.t.within r.1 r.2)).map (fun r => max r.1 x.f.t.decl.spad)
    bad.min?.map (fun o => { cause := 0x06, lane := lane, addr := BitVec.ofNat 64 o })

/-- An image with its padding bits zero (R159). -/
def cleaned (t : Ty) (n : Nat) (img : List Byte) : List Byte :=
  if t.isBlock then img else leBytes (t.imageBytes n) (leNat img % 2 ^ (t.width * n))

/-- Offset and stride of a thread's `mld` or `mst`. -/
def Iss.matAddr (x : Iss) (i : Nat) : Nat × Nat := (x.val x.h.a .n32 i % 2 ^ 32, x.val x.h.b .n32 i % 2 ^ 32)

/-- The exception of a thread's `mld` or `mst` under a tag. -/
def Iss.matShape (x : Iss) (i : Nat) (t : Ty) (load : Bool) : Option Word :=
  let d := x.mat x.h.d i
  let pre := [(d.count == 0, shapeExc 0), ((x.matAddr i).2 != 0 && !stridedOk t d.cols, shapeExc 1)]
  if load then x.resultOr pre t d.rows d.cols else firstExc pre

/-- The bytes that a thread's matrix access reads, and whether a word of them is poisoned. -/
def Iss.matBytes (x : Iss) (i : Nat) (t : Ty) : List Byte × Bool :=
  let d := x.mat x.h.d i
  let runs := matRuns t d.rows d.cols (x.matAddr i).1 (x.matAddr i).2
  ((runs.map (fun r => x.f.t.load r.1 r.2)).flatten, runs.any (fun r => x.f.t.loadPz r.1 r.2))

/-- The fault of the lowest failing thread whose shape and tag checks pass (R156). -/
def Iss.matTrap (x : Iss) (t : Nat → Ty) (load : Bool) : Option Trap :=
  x.lanes.findSome? (fun i =>
    if (x.matShape i (t i) load).isSome then none
    else
      let d := x.mat x.h.d i
      let a := x.matAddr i
      x.matFault i a.1 a.2 (matRuns (t i) d.rows d.cols a.1 a.2))

/-- `mld` for one thread. -/
def mldOf (m : ModA) (x : Iss) (i : Nat) : MatOut :=
  match x.matShape i m.ty true with
  | some w => .exc w
  | none =>
    let d := x.mat x.h.d i
    let bs := x.matBytes i m.ty
    .ok (x.outM i { rows := d.rows, cols := d.cols, tag := m.ty, img := cleaned m.ty d.count bs.1, pz := bs.2 })

/-- R159: an image loaded from the scratchpad, read at issue (R156). -/
def execMld (h : Head) (m : ModA) (s : State) : Out :=
  s.issue .mld h (.a m) (fun x s =>
    if s.prismBusy x || s.acquiring x x.threads then .hold
    else match x.matTrap (fun _ => m.ty) true with
      | some t => .trap t
      | none => s.prismOp x true (mldOf m x) none)

/-- The tag that `mst` stores under. -/
def Iss.dTag (x : Iss) (i : Nat) : Ty := (x.mat x.h.d i).tag

/-- `mst` for one thread: nothing but its exception is written to registers. -/
def mstOf (x : Iss) (i : Nat) : MatOut :=
  match x.matShape i (x.dTag i) false with
  | some w => .exc w
  | none => .ok {}

/-- The bytes of a matrix stored: each run with its part of the image, padding zero. -/
def mstRuns (d : MReg) (a stride : Nat) : List (Nat × List Byte) :=
  let img := cleaned d.tag d.count d.img
  (matRuns d.tag d.rows d.cols a stride).mapIdx (fun k r => (r.1, (img.drop (k * r.2)).take r.2))

/-- The allocation after the stores of `mst`, lane by lane and row by row (R156). DEDUCED (log entry 184): each row is a write of its own for
the marks of the words it covers (R384). -/
def mstStores (x : Iss) (t : Team) : Team :=
  x.lanes.foldl (fun t i =>
    if (x.matShape i (x.dTag i) false).isSome then t
    else
      let d := x.mat x.h.d i
      (mstRuns d (x.matAddr i).1 (x.matAddr i).2).foldl (fun t r => t.store r.1 r.2 d.pz) t) t

/-- R159: an image stored to the scratchpad at issue (R156). -/
def execMst (h : Head) (m : ModA) (s : State) : Out :=
  s.issue .mst h (.a m) (fun x s =>
    if s.prismBusy x || s.acquiring x x.threads then .hold
    else match x.matTrap x.dTag false with
      | some t => .trap t
      | none => (s.updTeam x.f.core x.f.b.resp (mstStores x)).prismOp x false (mstOf x) none)

/-- Row and column of an element index (R160). -/
def elemIndex (w : Nat) : Nat × Nat := (w / 16 % 16, w % 16)

/-- The exception of an element access to a matrix (R160). -/
def elemExc (r : MReg) (t : Ty) (ij : Nat × Nat) : Option Word :=
  firstExc [(r.count == 0, shapeExc 0), (r.tag != t, shapeExc 2),
    (!(decide (ij.1 < r.rows) && decide (ij.2 < r.cols)), shapeExc 1)]

/-- `mget` for one thread. -/
def mgetOf (m : ModA) (x : Iss) (i : Nat) : MatOut :=
  let a := x.mat x.h.a i
  let ij := elemIndex (x.val x.h.b .n32 i)
  match elemExc a m.ty ij with
  | some w => .exc w
  | none => .ok (x.out m.ty i (imageCode a.tag a.img (ij.1 * a.cols + ij.2)) a.pz)

/-- R160: one element read. -/
def execMget (h : Head) (m : ModA) (s : State) : Out := prism .mget h m true (mgetOf m) s

/-- The image of a scalar tag with one element's bits replaced, and no other (R160). -/
def MReg.setElem (r : MReg) (k code : Nat) : List Byte :=
  let w := r.tag.width
  let x := leNat r.img
  leBytes (r.tag.imageBytes r.count) (x - bitsOf x (w * k) w * 2 ^ (w * k) + code % 2 ^ w * 2 ^ (w * k))

/-- `mset` for one thread. -/
def msetOf (m : ModA) (x : Iss) (i : Nat) : MatOut :=
  let d := x.mat x.h.d i
  let ij := elemIndex (x.val x.h.b .n32 i)
  match elemExc d m.ty ij with
  | some w => .exc w
  | none =>
    .ok (x.outM i { d with
      img := d.setElem (ij.1 * d.cols + ij.2) (x.val x.h.a m.ty i)
      pz := d.pz || x.f.b.poisoned x.e.a x.h.a i })

/-- R160: one element written. -/
def execMset (h : Head) (m : ModA) (s : State) : Out := prism .mset h m false (msetOf m) s

/-- `mmov` for one thread. -/
def mmovOf (x : Iss) (i : Nat) : MatOut :=
  let a := x.mat x.h.a i
  x.give i [(a.count == 0, shapeExc 0)] a.tag a.rows a.cols a.img a.pz

/-- R161: a matrix copied. -/
def execMmov (h : Head) (m : ModA) (s : State) : Out := prism .mmov h m false mmovOf s

/-- The image transposed; its padding bits are zeros (log entry 151). -/
def transposed (a : MReg) : List Byte :=
  imageOfCodes a.tag ((List.range a.count).map (fun k => imageCode a.tag a.img (k % a.rows * a.cols + k / a.rows)))

/-- `mtrn` for one thread. -/
def mtrnOf (x : Iss) (i : Nat) : MatOut :=
  let a := x.mat x.h.a i
  x.give i [(a.count == 0, shapeExc 0), (a.tag.isBlock, shapeExc 2)] a.tag a.cols a.rows (transposed a) a.pz

/-- R161: a matrix transposed. -/
def execMtrn (h : Head) (m : ModA) (s : State) : Out := prism .mtrn h m true mtrnOf s

/-- The image of a matrix converted to a tag (R162). -/
def mcvtImage (t : Ty) (mode : Rnd) (sat : Bool) (a : MReg) : List Byte :=
  if t.isBlock then
    imageOf t mode sat (a.vals.flatten.map (fun v => Ty.f32.decode (Ty.f32.round mode false v)))
  else if a.tag.isBlock then imageOf t mode sat a.vals.flatten
  else imageOfCodes t (a.codes.map (convert t a.tag mode sat))

/-- `mcvt` for one thread. -/
def mcvtOf (m : ModB) (x : Iss) (i : Nat) : MatOut :=
  let a := x.mat x.h.a i
  x.give i [(a.count == 0, shapeExc 0), (a.tag != m.sty, shapeExc 2)] m.dty a.rows a.cols
    (mcvtImage m.dty (x.mode m.rnd) m.sat a) a.pz

/-- R162: every element converted. -/
def execMcvt (h : Head) (m : ModB) (s : State) : Out :=
  s.issue .mcvt h (.b m) (fun x s => if s.prismBusy x then .hold else s.prismOp x true (mcvtOf m x) none)

/-! ### Products (R98 to R101, R163) -/

/-- A value negated where told to. -/
def negIf (n : Bool) (v : Ext) : Ext := if n then Ext.neg v else v

/-- The chunk size of R98. -/
def chunkK (a b : Ty) : Nat := if a == .f16 || a == .bf16 || b == .f16 || b == .bf16 then 8 else 16

/-- The chunked sum of products onto an FP32 value (R98, R99). -/
def narrowSum (k : Nat) (acc : Ext) (ps : List Ext) : Ext :=
  (chunks k ((ps.length + k - 1) / k) ps).foldl (fun acc c =>
    Ty.f32.decode (Ty.f32.round .rne false (Ext.sum false [acc, Ext.sum false c]))) acc

/-- The code of an element of D from its products and its addend (R98 to R101). -/
def mmaElem (fa fb fc : Ty) (mode : Rnd) (sat : Bool) (ps : List Ext) (c : Ext) : Nat :=
  if fc == .i32 then
    fc.wrap ((ps ++ [c]).foldl (fun acc p => acc + p.units 0) (0 : Int))
  else if isNarrow fa then
    let acc := narrowSum (chunkK fa fb) c ps
    if fc == .f32 then fc.round .rne false acc else fc.round mode sat acc
  else
    let acc := ps.foldl (fun acc p => fc.decode (fc.round mode false (Ext.add mode p acc))) c
    fc.round .rne sat acc

/-- The products of a row of A and a column of B, negated as told. -/
def products (na nb : Bool) (r c : List Ext) : List Ext := List.zipWith (fun a b => Ext.mul (negIf na a) (negIf nb b)) r c

/-- What one product computes from: the values of A, B by columns, and the addends. -/
structure Product where
  fa  : Ty
  fb  : Ty
  fc  : Ty
  m   : Nat
  n   : Nat
  a   : List (List Ext)
  b   : List (List Ext)
  c   : List (List Ext)
  na  : Bool
  nb  : Bool

/-- Each element's products with its addend, in row-major order. -/
def Product.terms (q : Product) : List (List Ext × Ext) :=
  (List.zipWith (fun r cs => List.zipWith (fun col c => (products q.na q.nb r col, c)) q.b cs) q.a q.c).flatten

/-- The element codes of D. -/
def Product.codes (q : Product) (mode : Rnd) (sat : Bool) : List Nat :=
  q.terms.map (fun t => mmaElem q.fa q.fb q.fc mode sat t.1 t.2)

/-- Addends of m × n zeros. -/
def zeroRows (m n : Nat) : List (List Ext) := List.replicate m (List.replicate n (.fin false 0 0))

/-- The bits of SUB for `mma` and `mmasp` (R70). -/
def subZc (m : ModA) : Bool := m.sub.getLsbD 0
def subNb (m : ModA) : Bool := m.sub.getLsbD 1
def subNa (m : ModA) : Bool := m.sub.getLsbD 2

/-- The product that `mma` forms in a thread. -/
def mmaProduct (m : ModA) (x : Iss) (i : Nat) : Product :=
  let fmt := x.f.p.fmt
  let a := x.mat x.h.a i
  let b := x.mat x.h.b i
  { fa := fmtTy fmt 27, fb := fmtTy fmt 22, fc := fmtTy fmt 17, m := a.rows, n := b.cols
    a := a.vals, b := columns b.cols b.vals
    c := if subZc m then zeroRows a.rows b.cols else (x.mat x.h.c i).vals, na := subNa m, nb := subNb m }

/-- The exception of a thread's `mma` (R144, R163). -/
def mmaExc (m : ModA) (x : Iss) (i : Nat) : Option Word :=
  let fmt := x.f.p.fmt
  let a := x.mat x.h.a i
  let b := x.mat x.h.b i
  let c := x.mat x.h.c i
  let acc := !(subZc m)
  x.resultOr [(a.count == 0 || b.count == 0 || (acc && c.count == 0), shapeExc 0),
    (a.cols != b.rows || (acc && (c.rows != a.rows || c.cols != b.cols)), shapeExc 1),
    (a.tag != fmtTy fmt 27 || b.tag != fmtTy fmt 22 || (acc && c.tag != fmtTy fmt 17), shapeExc 2)]
    (fmtTy fmt 17) a.rows b.cols

/-- Are the sources of a thread's `mma` poisoned? `.zc` reads no C. -/
def mmaMarked (m : ModA) (x : Iss) (i : Nat) : Bool :=
  (x.mat x.h.a i).pz || (x.mat x.h.b i).pz || (!(subZc m) && (x.mat x.h.c i).pz)

/-- A product's result register. -/
def Product.reg (q : Product) (mode : Rnd) (sat pz : Bool) : MReg :=
  { rows := q.m, cols := q.n, tag := q.fc, img := imageOfCodes q.fc (q.codes mode sat), pz := pz }

/-- `mma` for one thread. -/
def mmaOf (m : ModA) (x : Iss) (i : Nat) : MatOut :=
  match mmaExc m x i with
  | some w => .exc w
  | none => .ok (x.outM i ((mmaProduct m x i).reg (x.mode m.rnd) m.sat (mmaMarked m x i)))

/-! ### Sparse products (R148 to R150, R164) -/

/-- The metadata record of `mmasp`. -/
def Iss.metaRec (x : Iss) : Nat := x.val x.h.c .n64 0

/-- Is the address record bad (R150)? -/
def metaBad (r spad : Nat) : Bool :=
  r / 2 ^ 20 != 0 || r % 64 != 0 || decide (spad < r % 2 ^ 19 + (if r / 2 ^ 19 % 2 = 1 then 16 else 512))

/-- The scratchpad offset of a lane's metadata. -/
def metaOff (r lane : Nat) : Nat := r % 2 ^ 19 + if r / 2 ^ 19 % 2 = 1 then 0 else 16 * lane

/-- Index t of metadata bytes. -/
def metaIdx (bs : List Byte) (t : Nat) : Nat := ((bs[t / 2]?).getD 0).toNat / 16 ^ (t % 2) % 16

/-- The first bad index of the metadata (R150), among `count` indices with N to a group. -/
def metaFault (bs : List Byte) (n m count : Nat) : Option Word :=
  (List.range count).findSome? (fun t =>
    let p := metaIdx bs t
    if m ≤ p then some (metaExc 1 (t / n))
    else if (List.range (t % n)).any (fun k => metaIdx bs (t / n * n + k) == p) then some (metaExc 0 (t / n))
    else none)

/-- A row of the full A: the kept elements at the positions the metadata gives, +0 elsewhere (R148). -/
def expandRow (bs : List Byte) (n m v groups : Nat) (row : List Ext) : List Ext :=
  (List.range (groups * m)).map (fun k =>
    let g := k / m
    ((List.range n).findSome? (fun s =>
      if metaIdx bs ((v * groups + g) * n + s) = k % m then row[g * n + s]? else none)).getD (.fin false 0 0))

/-- What a thread's `mmasp` raises before it reads its metadata (R144, R148, R150, R164). -/
def mmaspEarly (m : ModA) (x : Iss) (i : Nat) : Option Word :=
  let fmt := x.f.p.fmt
  let a := x.mat x.h.a i
  let b := x.mat x.h.b i
  let d := x.mat x.h.d i
  let acc := !(subZc m)
  let nm := (fmtRatio fmt).getD (1, 1)
  let shape := x.resultOr [(a.count == 0 || b.count == 0 || (acc && d.count == 0), shapeExc 0),
    ((fmtRatio fmt).isNone, shapeExc 5),
    (b.rows % nm.2 != 0 || a.cols != b.rows / nm.2 * nm.1 || a.rows % fmtRows fmt != 0 ||
      (acc && (d.rows != a.rows || d.cols != b.cols)), shapeExc 1),
    (a.tag != fmtTy fmt 27 || b.tag != fmtTy fmt 22 || (acc && d.tag != fmtTy fmt 17), shapeExc 2)]
    (fmtTy fmt 17) a.rows b.cols
  match shape with
  | some w => some w
  | none => if metaBad x.metaRec x.f.t.decl.spad then some (metaExc 2 0) else none

/-- The exception of a thread's `mmasp`. -/
def mmaspExc (m : ModA) (x : Iss) (i : Nat) : Option Word :=
  match mmaspEarly m x i with
  | some w => some w
  | none =>
    let nm := (fmtRatio x.f.p.fmt).getD (1, 1)
    metaFault (x.f.t.load (metaOff x.metaRec i) 16) nm.1 nm.2
      ((x.mat x.h.a i).rows / fmtRows x.f.p.fmt * ((x.mat x.h.b i).rows / nm.2) * nm.1)

/-- Does an executing thread of `mmasp` read metadata that is poisoned (R387)? -/
def mmaspMet (m : ModA) (x : Iss) : Bool :=
  x.lanes.any (fun i => (mmaspEarly m x i).isNone && x.f.t.loadPz (metaOff x.metaRec i) 16)

/-- The product that `mmasp` forms in a thread. -/
def mmaspProduct (m : ModA) (x : Iss) (i : Nat) : Product :=
  let fmt := x.f.p.fmt
  let a := x.mat x.h.a i
  let b := x.mat x.h.b i
  let nm := (fmtRatio fmt).getD (1, 1)
  let bs := x.f.t.load (metaOff x.metaRec i) 16
  { fa := fmtTy fmt 27, fb := fmtTy fmt 22, fc := fmtTy fmt 17, m := a.rows, n := b.cols
    a := a.vals.mapIdx (fun r row => expandRow bs nm.1 nm.2 (r / fmtRows fmt) (b.rows / nm.2) row)
    b := columns b.cols b.vals
    c := if subZc m then zeroRows a.rows b.cols else (x.mat x.h.d i).vals, na := subNa m, nb := subNb m }

/-- Are the sources of a thread's `mmasp` poisoned? -/
def mmaspMarked (m : ModA) (x : Iss) (i : Nat) : Bool :=
  (x.mat x.h.a i).pz || (x.mat x.h.b i).pz || (!(subZc m) && (x.mat x.h.d i).pz) || x.f.t.loadPz (metaOff x.metaRec i) 16

/-- `mmasp` for one thread. -/
def mmaspOf (m : ModA) (x : Iss) (i : Nat) : MatOut :=
  match mmaspExc m x i with
  | some w => .exc w
  | none => .ok (x.outM i ((mmaspProduct m x i).reg (x.mode m.rnd) m.sat (mmaspMarked m x i)))

/-! ### Deviation telemetry (R104 to R107) -/

/-- The unit in the last place of an FP32 value (R105): its exponent. -/
def ulpExp (v : Ext) : Int := if v.isZero then -149 else max v.log2 (-126) - 23

/-- The deviation of a produced value from its reference, both FP32 codes (R105). Opposite infinities saturate; where one of the two is a
NaN and the other infinite, R105 states no value, and it is a free one (log entry 149). -/
def deviation (got ref : Nat) : Nat :=
  let g := Ty.f32.decode got
  let r := Ty.f32.decode ref
  let odd (v : Ext) : Bool := match v with | .fin _ _ _ => false | _ => true
  if got = ref || (g.isNan && r.isNan) then 0
  else if odd g != odd r then 0xFFFF_FFFF
  else if g.isNan || r.isNan then (Config.openDeviation got ref).toNat
  else if odd g then 0xFFFF_FFFE
  else
    match Ext.sum false [g, r.neg] with
    | .fin _ m e => min (roundUnits .rup false m e false (ulpExp r)) 0xFFFF_FFFE
    | _ => 0

/-- A measured element. -/
structure Measure where
  dev  : Nat
  ref  : Nat
  got  : Nat
  lane : Nat
  row  : Nat
  col  : Nat

/-- The measures of a product in a lane (R105). The reference counts the addend as a term. -/
def Product.measures (q : Product) (mode : Rnd) (sat : Bool) (lane : Nat) : List Measure :=
  q.terms.mapIdx (fun k t =>
    let got := Ty.f32.round .rne false (q.fc.decode (mmaElem q.fa q.fb q.fc mode sat t.1 t.2))
    let ref := Ty.f32.round .rne false (Ext.sum false (t.1 ++ [t.2]))
    { dev := deviation got ref, ref := ref, got := got, lane := lane, row := k / q.n, col := k % q.n })

/-- The measure with the largest deviation, the first of equals. -/
def worst : List Measure → Option Measure
  | [] => none
  | x :: l => some (l.foldl (fun b y => if b.dev < y.dev then y else b) x)

/-- The ring entry of a measure (R106). -/
def Measure.entry (k : Measure) (launch core quad : Nat) (pc : Word) : BitVec 256 :=
  BitVec.ofNat 256 (quad * 2 ^ 17 + k.col * 2 ^ 19 + k.row * 2 ^ 23 + k.lane * 2 ^ 27 + k.got * 2 ^ 32 + k.ref * 2 ^ 64
    + k.dev * 2 ^ 96 + pc.toNat * 2 ^ 128 + core * 2 ^ 160 + launch * 2 ^ 192)

/-- Does the instruction count for sampling (R104)? -/
def Iss.qualifies (x : Iss) : Bool := x.f.p.fmt.getLsbD 10 && !x.lanes.isEmpty && (fmtTy x.f.p.fmt 17).isFloat

/-- The quadrant's sample counter advanced, and whether the instruction is sampled (R104). -/
def State.sampling (s : State) (x : Iss) : State × Bool :=
  if x.qualifies then
    let q := x.f.slot / 16
    let n : Word := (s.core x.f.core).sample.getD q 0 + 1
    let teln := match s.vds.look x.f.t.vd with | some d => d.field 584 4 + 8 | none => 8
    (s.updCore x.f.core (fun c => { c with sample := c.sample.put q n }), n.toNat % 2 ^ teln == 0)
  else (s, false)

/-- A product instruction, measured where it is sampled; a sample in which every executing thread raised an exception writes no entry
(log entry 131). -/
def State.productOp (s : State) (x : Iss) (m : ModA) (exc : Nat → Option Word) (prod : Nat → Product)
    (res : Nat → MatOut) (met : Bool := false) : Res :=
  if s.prismBusy x || (x.op == .mmasp && s.acquiring x x.threads) then .hold
  else
    let (s, hit) := s.sampling x
    let sample : Option (BitVec 256) :=
      if hit then
        (worst ((x.lanes.filter (fun i => (exc i).isNone)).map (fun i =>
          (prod i).measures (x.mode m.rnd) m.sat i)).flatten).map (fun k =>
            k.entry (s.launchLow x.f.t.vd x.f.t.launch) x.f.core (x.f.slot / 16) x.pc)
      else none
    s.prismOp x true res sample met

/-- R163: D = A × B + C. -/
def execMma (h : Head) (m : ModA) (s : State) : Out :=
  s.issue .mma h (.a m) (fun x s => s.productOp x m (mmaExc m x) (mmaProduct m x) (mmaOf m x))

/-- R164: the sparse product. -/
def execMmasp (h : Head) (m : ModA) (s : State) : Out :=
  s.issue .mmasp h (.a m) (fun x s => s.productOp x m (mmaspExc m x) (mmaspProduct m x) (mmaspOf m x) (mmaspMet m x))

/-! ### Element-wise operations and reductions (R165, R166) -/

/-- The exceptions of an element-wise operation. -/
def pairChecks (a b : MReg) (t : Ty) : List (Bool × Word) :=
  [(a.count == 0 || b.count == 0, shapeExc 0), (a.rows != b.rows || a.cols != b.cols, shapeExc 1),
    (a.tag != t || b.tag != t, shapeExc 2)]

/-- An element-wise operation for one thread. -/
def elementwise (m : ModA) (int : Int → Int → Int) (flt : Ext → Ext → Ext) (x : Iss) (i : Nat) : MatOut :=
  let a := x.mat x.h.a i
  let b := x.mat x.h.b i
  let f (p q : Nat) : Nat :=
    if m.ty.isInt then m.ty.fit m.sat (int (m.ty.val p) (m.ty.val q))
    else m.ty.round (x.mode m.rnd) m.sat (flt (m.ty.decode p) (m.ty.decode q))
  x.give i (pairChecks a b m.ty) m.ty a.rows a.cols (imageOfCodes m.ty (List.zipWith f a.codes b.codes)) (a.pz || b.pz)

/-- `madd` for one thread. -/
def maddOf (m : ModA) (x : Iss) (i : Nat) : MatOut :=
  if m.sub = 1 then elementwise m (· - ·) (fun p q => Ext.add (x.mode m.rnd) p q.neg) x i
  else elementwise m (· + ·) (Ext.add (x.mode m.rnd)) x i

/-- R165: sums and differences. -/
def execMadd (h : Head) (m : ModA) (s : State) : Out := prism .madd h m true (maddOf m) s

/-- R165: products of elements. -/
def execMhad (h : Head) (m : ModA) (s : State) : Out := prism .mhad h m true (elementwise m (· * ·) Ext.mul) s

/-- The reduction of one row or column (R166): 0 add, 1 min, 2 max. -/
def mredOf1 (t : Ty) (mode : Rnd) (sat : Bool) (op : Nat) (vs : List Nat) : Nat :=
  match op with
  | 0 =>
    if t.isInt then t.fit sat (vs.foldl (fun acc v => acc + t.val v) (0 : Int))
    else t.round mode sat (Ext.sum (mode == .rdn) (vs.map t.decode))
  | _ => reduceOf1 t op vs
where
  /-- Minimum or maximum of codes. -/
  reduceOf1 (t : Ty) (op : Nat) (vs : List Nat) : Nat :=
    match vs with
    | [] => 0
    | v :: rest =>
      if t.isInt then
        t.wrap (rest.foldl (fun acc c => if op = 1 then min acc (t.val c) else max acc (t.val c)) (t.val v))
      else if vs.all (fun c => (t.decode c).isNan) then t.nanCode
      else rest.foldl (fpick t (op == 2) true) v

/-- `mred` for one thread. -/
def mredOf (m : ModA) (x : Iss) (i : Nat) : MatOut :=
  let a := x.mat x.h.a i
  let cols := m.sub.getLsbD 2
  let lines : List (List Nat) :=
    if cols then (List.range a.cols).map (fun j => (List.range a.rows).map (fun r => imageCode a.tag a.img (r * a.cols + j)))
    else (List.range a.rows).map (fun r => (List.range a.cols).map (fun j => imageCode a.tag a.img (r * a.cols + j)))
  x.give i [(a.count == 0, shapeExc 0), (a.tag != m.ty, shapeExc 2)] m.ty (if cols then 1 else a.rows)
    (if cols then a.cols else 1)
    (imageOfCodes m.ty (lines.map (mredOf1 m.ty (x.mode m.rnd) m.sat (m.sub.toNat % 4)))) a.pz

/-- R166: rows or columns reduced. -/
def execMred (h : Head) (m : ModA) (s : State) : Out := prism .mred h m true (mredOf m) s

/-! ### Factorisations and functions (R167 to R172) -/

/-- A matrix as rows of values. -/
abbrev Rows := List (List Ext)

/-- An element of rows. -/
def cell (m : Rows) (i j : Nat) : Ext := ((m[i]?).bind (·[j]?)).getD .nan

/-- Two rows exchanged. -/
def swapRows {α : Type} (l : List α) (i j : Nat) : List α :=
  match l[i]?, l[j]? with
  | some a, some b => (l.set i b).set j a
  | _, _ => l

/-- The identity of size n. -/
def identity (n : Nat) : Rows :=
  (List.range n).map (fun i => (List.range n).map (fun j => if i = j then .fin false 1 0 else .fin false 0 0))

/-- The magnitude. -/
def extAbs : Ext → Ext
  | .fin _ m e => .fin false m e
  | .inf _ => .inf false
  | .nan => .nan

/-- Does a magnitude rank above another, a NaN above every number (R167)? -/
def outranks (a b : Ext) : Bool := if b.isNan then false else a.isNan || Ext.lt (extAbs b) (extAbs a)

/-- piv(M, j) (R167). -/
def pivot (m : Rows) (n j : Nat) : Nat :=
  (List.range n).foldl (fun p i => if j < i && outranks (cell m i j) (cell m p j) then i else p) j

/-- rd of a value, as the value it represents. -/
def rd (t : Ty) (mode : Rnd) (v : Ext) : Ext := t.decode (t.round mode false v)

/-- rd(a / b). -/
def rdDiv (t : Ty) (mode : Rnd) (a b : Ext) : Ext := t.decode (fdivide t mode false a b)

/-- rd(√a). -/
def rdSqrt (t : Ty) (mode : Rnd) (a : Ext) : Ext := t.decode (fsqrtOf t mode false a)

/-- rd(a − f × b), fused. -/
def rdSub (t : Ty) (mode : Rnd) (a f b : Ext) : Ext := rd t mode (Ext.add mode (Ext.mul f b).neg a)

/-- The image of rows whose values the format represents. -/
def imageOfRows (t : Ty) (m : Rows) : List Byte := imageOfCodes t (m.flatten.map (t.round .rne false))

/-- One column of `minv`. -/
def minvStep (t : Ty) (mode : Rnd) (n j : Nat) (m x : Rows) : Except Word (Rows × Rows) :=
  let p := pivot m n j
  if (cell m p j).isZero then .error (singExc j)
  else
    let m := swapRows m p j
    let x := swapRows x p j
    let g := cell m j j
    let mj := ((m[j]?).getD []).map (fun a => rdDiv t mode a g)
    let xj := ((x[j]?).getD []).map (fun a => rdDiv t mode a g)
    let other (k : Nat) (row by_ : List Ext) : List Ext :=
      if k = j then by_ else List.zipWith (fun a b => rdSub t mode a (cell m k j) b) row by_
    .ok (m.mapIdx (fun k r => other k r mj), x.mapIdx (fun k r => other k r xj))

/-- R168: the inverse, or SING. -/
def minvRows (t : Ty) (mode : Rnd) (n : Nat) (a : Rows) : Except Word Rows :=
  ((List.range n).foldl (fun (acc : Except Word (Rows × Rows)) j =>
    match acc with
    | .ok (m, x) => minvStep t mode n j m x
    | .error w => .error w) (.ok (a, identity n))).map (·.2)

/-- One column of `mlu` and `msolve`: the pivot rows, and the rows below eliminated. `w` stands beside M: the permutation or
the right-hand side. -/
def eliminate (t : Ty) (mode : Rnd) (n j : Nat) (m : Rows) : Except Word (Nat × Rows) :=
  let p := pivot m n j
  if (cell m p j).isZero then .error (singExc j)
  else
    let m := swapRows m p j
    let g := cell m j j
    .ok (p, m.mapIdx (fun i r =>
      if i ≤ j then r
      else
        let f := rdDiv t mode (cell m i j) g
        r.mapIdx (fun c a => if c < j then a else if c = j then f else rdSub t mode a f (cell m j c))))

/-- R169: the factors with the permutation, or SING. -/
def mluRows (t : Ty) (mode : Rnd) (n : Nat) (a : Rows) : Except Word (Rows × List Nat) :=
  (List.range n).foldl (fun acc j =>
    match acc with
    | .ok (m, perm) => (eliminate t mode n j m).map (fun r => (r.2, swapRows perm r.1 j))
    | .error w => .error w) (.ok (a, List.range 16))

/-- The column j of `mchol`: s of the pseudocode for row i. -/
def cholS (t : Ty) (mode : Rnd) (a l : Rows) (i j : Nat) : Ext :=
  (List.range j).foldl (fun s k => rdSub t mode s (cell l i k) (cell l j k)) (cell a i j)

/-- R170: the Cholesky factor, or NPD. -/
def mcholRows (t : Ty) (mode : Rnd) (n : Nat) (a : Rows) : Except Word Rows :=
  (List.range n).foldl (fun acc j =>
    match acc with
    | .error w => .error w
    | .ok l =>
      let s := cholS t mode a l j j
      if s.isNan || s.isZero || s.sign then .error (npdExc j)
      else
        let d := rdSqrt t mode s
        .ok (l.mapIdx (fun i r =>
          if i < j then r
          else if i = j then r.set j d
          else r.set j (rdDiv t mode (cholS t mode a l i j) d)))) (.ok (zeroRows n n))

/-- The right-hand side after the elimination of column j (R171). `m` is M after it. -/
def eliminateRhs (t : Ty) (mode : Rnd) (j p : Nat) (m y : Rows) : Rows :=
  let y := swapRows y p j
  y.mapIdx (fun i r => if i ≤ j then r else r.mapIdx (fun c a => rdSub t mode a (cell m i j) (cell y j c)))

/-- Back substitution for row i, given the rows of X below it (R171). -/
def backRow (t : Ty) (mode : Rnd) (n i : Nat) (m y x : Rows) : List Ext :=
  ((y[i]?).getD []).mapIdx (fun c s0 =>
    rdDiv t mode ((List.range n).foldl (fun s k => if i < k then rdSub t mode s (cell m i k) (cell x k c) else s) s0) (cell m i i))

/-- R171: the solution, or SING. -/
def msolveRows (t : Ty) (mode : Rnd) (n : Nat) (a b : Rows) : Except Word Rows :=
  let e := (List.range n).foldl (fun (acc : Except Word (Rows × Rows)) j =>
    match acc with
    | .error w => .error w
    | .ok (m, y) => (eliminate t mode n j m).map (fun r => (r.2, eliminateRhs t mode j r.1 r.2 y))) (.ok (a, b))
  e.map (fun my => (List.range n).foldl (fun x k =>
    let i := n - 1 - k
    x.set i (backRow t mode n i my.1 my.2 x)) my.2)

/-- prod(X, Y) of R172. -/
def chainProd (t : Ty) (mode : Rnd) (n : Nat) (x y : Rows) : Rows :=
  (List.range n).map (fun i => (List.range n).map (fun c =>
    (List.range n).foldl (fun acc k => rd t mode (Ext.add mode (Ext.mul (cell x i k) (cell y k c)) acc)) (.fin false 0 0)))

/-- The squarings of `mexp`: the least s with ν × 2^-s ≤ 1/2. -/
def squarings (v : Ext) : Nat :=
  match v with
  | .fin _ m e => if m = 0 then 0 else ((Nat.log2 m : Int) + e + (if 2 ^ Nat.log2 m = m then 1 else 2)).toNat
  | _ => 0

/-- f applied n times. -/
def iterate {α : Type} (f : α → α) : Nat → α → α
  | 0, a => a
  | n + 1, a => iterate f n (f a)

/-- R172: the exponential. -/
def mexpRows (t : Ty) (mode : Rnd) (n : Nat) (a : Rows) : Rows :=
  let sums := (columns n a).map (fun c => Ext.sum false (c.map extAbs))
  let nu := sums.foldl (fun v u => if v.isNan || u.isNan then .nan else if Ext.lt v u then u else v) (.fin false 0 0)
  match nu with
  | .fin _ _ _ =>
    let s := squarings nu
    let sm := a.map (fun r => r.map (fun v => rd t mode (Ext.scale (-(s : Int)) v)))
    let p := (List.range 8).foldl (fun p k =>
      let d := Ext.fin false (8 - k) 0
      (chainProd t mode n sm p).mapIdx (fun i r => r.mapIdx (fun c v =>
        let v := rdDiv t mode v d
        if i = c then rd t mode (Ext.add mode v (.fin false 1 0)) else v))) (identity n)
    iterate (fun p => chainProd t mode n p p) s p
  | _ => List.replicate n (List.replicate n .nan)

/-- The exceptions of a square source (R167). -/
def squareChecks (a : MReg) (t : Ty) : List (Bool × Word) :=
  [(a.count == 0, shapeExc 0), (a.rows != a.cols, shapeExc 1), (a.tag != t, shapeExc 2)]

/-- A factorisation of A for one thread: the entry's conditions, then those that arise inside. -/
def factorise (m : ModA) (x : Iss) (i : Nat) (checks : List (Bool × Word)) (c : Nat) (pz : Bool)
    (rows : Except Word Rows) : MatOut :=
  let a := x.mat x.h.a i
  match x.resultOr checks m.ty a.rows c, rows with
  | some w, _ => .exc w
  | none, .error w => .exc w
  | none, .ok r => .ok (x.outM i { rows := a.rows, cols := c, tag := m.ty, img := imageOfRows m.ty r, pz := pz })

/-- `minv` for one thread. -/
def minvOf (m : ModA) (x : Iss) (i : Nat) : MatOut :=
  let a := x.mat x.h.a i
  factorise m x i (squareChecks a m.ty) a.cols a.pz (minvRows m.ty (x.mode m.rnd) a.rows a.vals)

/-- R168: the inverse. -/
def execMinv (h : Head) (m : ModA) (s : State) : Out := prism .minv h m true (minvOf m) s

/-- The packed permutation (R169). -/
def packPerm (perm : List Nat) : Nat := packCodes 4 perm

/-- The pair vb written by `mlu`. -/
def Iss.outPerm (x : Iss) (lane : Nat) (perm : List Nat) (pz : Bool) : RegOut :=
  let w := packPerm perm
  wordsOut false x.f.b x.h.b lane [{ val := BitVec.ofNat 32 w, pz := pz }, { val := BitVec.ofNat 32 (w / 2 ^ 32), pz := pz }]

/-- `mlu` for one thread. -/
def mluOf (m : ModA) (x : Iss) (i : Nat) : MatOut :=
  let a := x.mat x.h.a i
  let lu := mluRows m.ty (x.mode m.rnd) a.rows a.vals
  match factorise m x i (squareChecks a m.ty) a.cols a.pz (lu.map (·.1)), lu with
  | .ok o, .ok r => .ok (o.join (x.outPerm i r.2 a.pz))
  | o, _ => o

/-- R169: the factors and the permutation. -/
def execMlu (h : Head) (m : ModA) (s : State) : Out := prism .mlu h m true (mluOf m) s

/-- `mchol` for one thread. -/
def mcholOf (m : ModA) (x : Iss) (i : Nat) : MatOut :=
  let a := x.mat x.h.a i
  factorise m x i (squareChecks a m.ty) a.cols a.pz (mcholRows m.ty (x.mode m.rnd) a.rows a.vals)

/-- R170: the Cholesky factor. -/
def execMchol (h : Head) (m : ModA) (s : State) : Out := prism .mchol h m true (mcholOf m) s

/-- The exceptions of `msolve` (R167, R171). -/
def solveChecks (a b : MReg) (t : Ty) : List (Bool × Word) :=
  [(a.count == 0 || b.count == 0, shapeExc 0), (a.rows != a.cols || b.rows != a.rows, shapeExc 1),
    (a.tag != t || b.tag != t, shapeExc 2)]

/-- `msolve` for one thread. -/
def msolveOf (m : ModA) (x : Iss) (i : Nat) : MatOut :=
  let a := x.mat x.h.a i
  let b := x.mat x.h.b i
  factorise m x i (solveChecks a b m.ty) b.cols (a.pz || b.pz) (msolveRows m.ty (x.mode m.rnd) a.rows a.vals b.vals)

/-- R171: the solution. -/
def execMsolve (h : Head) (m : ModA) (s : State) : Out := prism .msolve h m true (msolveOf m) s

/-- The exceptions of `mexp` (R167, R172). -/
def expChecks (a : MReg) (t : Ty) : List (Bool × Word) :=
  [(a.count == 0, shapeExc 0), (a.rows != a.cols || decide (8 < a.rows), shapeExc 1), (a.tag != t, shapeExc 2)]

/-- `mexp` for one thread. -/
def mexpOf (m : ModA) (x : Iss) (i : Nat) : MatOut :=
  let a := x.mat x.h.a i
  factorise m x i (expChecks a m.ty) a.cols a.pz (.ok (mexpRows m.ty (x.mode m.rnd) a.rows a.vals))

/-- R172: the exponential. -/
def execMexp (h : Head) (m : ModA) (s : State) : Out := prism .mexp h m true (mexpOf m) s

/-! ### fmt (R173) -/

/-- The value that `fmt` reads: the register, or the immediate in bits [31:12]. -/
def fmtValue (x : Iss) : Word :=
  match x.h.a with
  | .imm => BitVec.ofNat 32 (x.h.imm.toNat * 4096)
  | o => (x.f.b.reg o 0 0).val

/-- R173: FMT of the issuing path. -/
def execFmt (h : Head) (s : State) : Out :=
  s.issue .fmt h .none (fun x s =>
    if x.lanes.isEmpty then .sent s
    else if fmtOk (fmtValue x) then
      .sent (s.updBeam x.f.core x.f.slot (fun b => { b with flow := b.flow.setRun (fun p => { p with fmt := fmtValue x }) }))
    else .trap { cause := 0x01, reason := 0x04 })

end Sys2Proof.Machine
end

