-- ==== Sys2Proof/Machine/System.lean ====
section
/-!
DEFINITION. Group 0xA: traps, special registers, saved contexts, the error queue and `kill` (R371 to R382).
-/
namespace Sys2Proof.Machine

/-- R372: the software trap, after completion. -/
def execTrap (h : Head) (s : State) : Out :=
  s.issue .trap h .none (fun x s =>
    if x.lanes.isEmpty then .sent s else .after { cause := 0x10, addr := x.number, done := true } s)

/-- Is a prism instruction that a beam issued in its handler still in flight? -/
def State.handlerPrism (s : State) (x : Iss) : Bool := s.fills.any (fun f => f.beam == x.ref && f.prism.any (·.handled))

/-- R373: handler mode is left, and the frozen paths run on. The beam holds while a prism instruction of its handler is in flight, since a
second mismatch would set the handler back to it (R388; DEDUCED, log entry 177). -/
def execRte (h : Head) (s : State) : Out :=
  s.issue .rte h .none (fun x s =>
    if x.lanes.isEmpty then .sent s
    else if s.handlerPrism x then .hold
    else .leave ((s.issued x false).returnFrom x.f.core x.f.slot))

/-! ### Special registers (R30, R374, R375) -/

/-- A special register in an execution, and whether it is 64 bits wide. `%cyc` is given. -/
def Iss.special (x : Iss) (cyc : DWord) (lane : Nat) : Spr → DWord × Bool
  | .tid => (BitVec.ofNat 64 (32 * x.f.b.idx + lane), false)
  | .lane => (BitVec.ofNat 64 lane, false)
  | .beam => (BitVec.ofNat 64 x.f.b.idx, false)
  | .team => (BitVec.ofNat 64 (x.f.t.index % 2 ^ 32), false)
  | .core => (BitVec.ofNat 64 x.f.core, false)
  | .cyc => (cyc, true)
  | .ext0 => ((x.f.t.ext[0]?.getD 0).setWidth 64, false)
  | .ext1 => ((x.f.t.ext[1]?.getD 0).setWidth 64, false)
  | .ext2 => ((x.f.t.ext[2]?.getD 0).setWidth 64, false)
  | .emask => (x.f.b.emask.setWidth 64, false)
  | .ekind => ((x.f.b.ekind.getD lane 0).setWidth 64, false)
  | .tcause => (x.f.b.tcause.setWidth 64, false)
  | .tpc => (x.f.b.tpc.setWidth 64, false)
  | .taddr => (x.f.b.taddr, true)
  | .part => (x.f.p.part.setWidth 64, false)
  | .fmt => (x.f.p.fmt.setWidth 64, false)

/-- The registers that D of an `sread` receives. -/
def spread (v : DWord × Bool) : List Cell32 :=
  { val := v.1.setWidth 32 } :: (if v.2 then [{ val := (v.1 >>> 32).setWidth 32 }] else [])

/-- Does a prism instruction of the beam hold a read of `%emask` or `%ekind` (R145)? -/
def State.recordHeld (s : State) (x : Iss) : Bool := s.fills.any (fun f => f.prism.isSome && f.beam == x.ref)

/-- `%cyc` of a core at this read (R24, R108), and the core's counter brought up to it. -/
def State.cycles (s : State) (core : Nat) : DWord × State :=
  let (n, s) := s.take
  let v := (s.core core).cyc + Config.cycles n
  (v, s.updCore core (fun c => { c with cyc := v }))

/-- R374: a special register copied. -/
def execSread (h : Head) (s : State) : Out :=
  s.issue .sread h .none (fun x s =>
    match h.a with
    | .spr r =>
      if (r == .emask || r == .ekind) && s.recordHeld x then .hold
      else
        let (cyc, s) := if r == .cyc && !x.lanes.isEmpty then s.cycles x.f.core else (0, s)
        .write (x.each (fun i => x.outWords i (spread (x.special cyc i r)))) s
    | _ => .sent s)

/-- The bits of `%tcause` without DONE. -/
def withDone (w : Word) (d : Bool) : Word := (w &&& ~~~(1#32 <<< 29)) ||| (if d then 1#32 <<< 29 else 0)

/-- A special register of a beam written (R375). -/
def Beam.special (b : Beam) (r : Spr) (vals : List (Nat × Word)) : Beam :=
  let w : Word := (vals.head?.map (·.2)).getD 0
  match r with
  | .emask => { b with emask := w }
  | .ekind => { b with ekind := putAll b.ekind (vals.map (fun e => (e.1, e.2 &&& 0xFF7))) }
  | .tpc => { b with tpc := w &&& 0xFF00_1FFF, tcause := withDone b.tcause false }
  | .tcause => { b with tcause := withDone b.tcause (w.getLsbD 29) }
  | _ => b

/-- R375: the writable fields of a special register written. -/
def execSwrite (h : Head) (s : State) : Out :=
  s.issue .swrite h .none (fun x s =>
    match h.d with
    | .spr r =>
      if x.lanes.isEmpty then .sent s
      else
        let vals := x.lanes.map (fun i => (i, BitVec.ofNat 32 (x.val h.a .n32 i)))
        .sent (s.updBeam x.f.core x.f.slot (fun b => b.special r vals))
    | _ => .sent s)

/-! ### Saved contexts (R376 to R378) -/

/-- The bytes of n words of a save block that holds registers: word k of register n of lane L (R377). -/
def blockWords (n : Nat) (word : Nat → Nat → Nat) : List Byte :=
  ((List.range n).map (fun k => ((List.range 32).map (fun i => leBytes 4 (word k i))).flatten)).flatten

/-- Slot j of a matrix image, as a word. -/
def MReg.slotWord (r : MReg) (j : Nat) : Nat := leNat ((r.img.drop (4 * j)).take 4)

/-- A save block after its control section (R377): v registers, then the slots of m registers. -/
def Beam.block (b : Beam) : List Byte :=
  blockWords b.decl.vregs (fun n i => (b.vreg i n).val.toNat) ++
    blockWords (b.decl.mcap * b.decl.mcount) (fun k i => (b.mreg i (k / b.decl.mcap)).slotWord (k % b.decl.mcap))

/-- The control section of save number id; its layout is not architected (R377). -/
def controlSection (id : Nat) : List Byte := (List.range 4096).map (Config.controlByte id)

/-- Where the pages of a block are: places, the code of R188, or that the instruction holds: for a page walk, or for a port. -/
inductive Pages where
  | at_ (ps : List Place)
  | fail (code : Nat)
  | walk
  | held

/-- Does a port hold accesses to a place, of a virtual device (R392)? -/
def State.placeHeld (s : State) (v : Nat) : Place → Bool
  | .here pa => s.portHolds v 0 pa
  | .peer dev => s.portHolds v dev 0
  | .fail _ => false

/-- The pages of 4 KiB that a block of the issuing beam takes, resolved in ascending order. A page whose translation is not at hand is
walked first (R193). -/
def State.blockPlaces (s : State) (x : Iss) (va n : Nat) (need : Rights) : Pages × State :=
  (List.range ((n + 4095) / 4096)).foldl (fun acc k =>
    match acc with
    | (.at_ ps, s) =>
      let a := va + 4096 * k
      match s.resolveHeld x.f.core x.f.t.vd a 4096 need x.f.b.missed with
      | (none, s) => (.walk, s.wantWalk x.f.core x.f.t.vd a [(x.ref, a)])
      | (some (.fail c), s) => (.fail c, s)
      | (some p, s) => if s.placeHeld x.f.t.vd p then (.held, s) else (.at_ (ps ++ [p]), s)
    | r => r) (.at_ [], s)

/-- The line of a block that holds word k of the registers of a lane (R377). -/
def blockLine (k lane : Nat) : Nat := 64 + 2 * k + lane / 16

/-- Does a line of a beam's block hold a poisoned v or m register (R384)? -/
def Beam.badLine (b : Beam) (j : Nat) : Bool :=
  (List.range 32).any (fun i => (List.range b.decl.vregs).any (fun n => blockLine n i == j && (b.vreg i n).pz) ||
    (List.range b.decl.mcount).any (fun r => (b.mreg i r).pz &&
      (List.range b.decl.mcap).any (fun k => blockLine (b.decl.vregs + b.decl.mcap * r + k) i == j)))

/-- Does a beam hold a mark? -/
def Beam.tainted (b : Beam) : Bool :=
  b.v.any (·.2.pz) || b.c.any (·.2.pz) || b.m.any (·.2.pz) || b.p.any (·.2.pz) || b.q.any (·.2.pz)

/-- A block written to its places, with the lines that are marked; a page on another device is that device's (R377). -/
def State.putBlock (s : State) (ps : List Place) (bs : List Byte) (bad : Nat → Bool) : State :=
  (ps.mapIdx (fun k p => (k, p))).foldl (fun s e =>
    match e.2 with
    | .here pa =>
      let s := s.storeBytes pa ((bs.drop (4096 * e.1)).take 4096) false
      let marks := (List.range 64).filter (fun i => bad (64 * e.1 + i))
      if s.shut pa then s else { s with linePz := marks.foldl (fun l i => markIn l (pa / 64 + i)) s.linePz }
    | _ => s) s

/-- A block read from its places, with the numbers of its poisoned lines. -/
def State.getBlock (s : State) (ps : List Place) : List Byte × List Nat :=
  ((ps.map (fun p =>
    match p with
    | .here pa => s.readBytes pa 4096
    | _ => (List.range 4096).map (Config.remoteByte s.fresh))).flatten,
    (ps.mapIdx (fun k p => (k, p))).flatMap (fun e =>
      match e.2 with
      | .here pa => ((List.range 64).filter (fun i => s.linePz.contains (pa / 64 + i))).map (fun i => 64 * e.1 + i)
      | _ => []))

/-- A beam as its save block records it: nothing of it is in flight (R376). -/
def Beam.recorded (b : Beam) : Beam := { b with
    emptyV := [], emptyC := [], emptyM := [], drain := [], latch := none, fetch := false, joined := [], fenced := [], missed := [] }

/-- The address that a save or restore names. -/
def Iss.blockVa (x : Iss) : Nat := x.val x.h.a .n64 0

/-- Does something of the beam still fill (R376)? Every register but the status is full, no result is in flight, and no `ovl` of it still
reads what the block could overwrite (R198). -/
def State.saveHeld (s : State) (x : Iss) : Bool :=
  let b := x.f.b
  !b.emptyV.isEmpty || !b.emptyM.isEmpty || !b.emptyC.isEmpty || s.fills.any (fun f => f.beam == x.ref) ||
    s.gops.any (fun g => g.beam == x.ref && !g.settled) || s.copies.any (fun c => c.beam == x.ref) ||
    s.ovls.any (fun l => l.beam == some x.ref && !l.fetch)

/-- R376: the beam's state saved. In a handler of cause 0x11 the beam then issues nothing more. A block that would carry poison out of
the virtual device is not written (R386). -/
def execCtxsv (h : Head) (s : State) : Out :=
  s.issue .ctxsv h .none (fun x s =>
    let va := x.blockVa
    let status (code : Nat) : RegOut := x.outWords 0 [{ val := BitVec.ofNat 32 code }]
    if x.lanes.isEmpty then .sent s
    else if s.saveHeld x then .hold
    else if va % 4096 ≠ 0 then .send (status 3) s
    else match s.blockPlaces x va (4096 + x.f.b.block.length) { w := true } with
      | (.fail c, s) => .send (status c) s
      | (.walk, s) => .walk s
      | (.held, _) => .hold
      | (.at_ ps, s) =>
        let s := s.meets x x.f.b.tainted
        if x.f.b.tainted && ps.any (fun p => s.leaks x.f.t.vd p 4096) then .send (status 2) s
        else
          let (id, s) := s.name
          let s := (s.putBlock ps (controlSection id ++ x.f.b.block) x.f.b.badLine).seeNow x.f.core
          let s := { s with blocks := s.blocks.put id (x.f.t.vd, x.f.b.recorded) }
          if (x.f.b.handler.map (·.cause)) == some 0x11 then .sleep .saved s else .send (status 0) s)

/-- The registers of a saved beam read back from its block, with the marks of its save. What comes through a line that the save did not
mark, or has been changed in a poisoned line since, is poisoned too (R385). -/
def Beam.reload (b : Beam) (bs : List Byte) (bad : List Nat) : Beam :=
  let at_ (k i : Nat) : List Byte := (bs.drop (4096 + 128 * k + 4 * i)).take 4
  let new (k i : Nat) (same : Bool) : Bool := bad.contains (blockLine k i) && (!b.badLine (blockLine k i) || !same)
  let vs : List (Nat × Cell32) := (List.range b.decl.vregs).flatMap (fun n => (List.range 32).map (fun i =>
    let w : Word := BitVec.ofNat 32 (leNat (at_ n i))
    (i + 32 * n, { val := w, pz := (b.vreg i n).pz || new n i (w == (b.vreg i n).val) })))
  let word (k j : Nat) : Nat := b.decl.vregs + b.decl.mcap * k + j
  let image (i k : Nat) : List Byte := ((List.range b.decl.mcap).map (fun j => at_ (word k j) i)).flatten
  { b with
    v := putAll [] vs
    m := b.m.map (fun e =>
      let img := (image (e.1 % 32) (e.1 / 32)).take e.2.img.length
      (e.1, { e.2 with
        img := img, pz := e.2.pz || (List.range b.decl.mcap).any (fun j => new (word (e.1 / 32) j) (e.1 % 32) (img == e.2.img)) }))
    planted := false }

/-- The saved beam that a block's control section stands for (R378); one with a poisoned line stands for none (log entry 122). -/
def State.blockOf (s : State) (x : Iss) (bs : List Byte) (bad : List Nat) : Option Beam :=
  if bad.any (fun j => decide (j < 64)) then none else (s.blocks.find? (fun e => e.2.1 == x.f.t.vd && e.2.2.idx == x.f.b.idx && e.2.2.decl == x.f.b.decl &&
    bs.take 4096 == controlSection e.1)).map (·.2.2)

/-- The beams of the ordinary team of a core that have not ended, by slot. -/
def State.teamBeams (s : State) (core : Nat) : List (Nat × Beam) := (s.core core).beams.filter (fun e => e.2.resp.isNone)

/-- A restored beam that was asleep at a barrier whose generation has completed since resumes awake (R276). -/
def Beam.pastBars (b : Beam) (t : Team) : Beam :=
  let passed (w : Sleep) : Bool :=
    match w with
    | .bar k => !(t.bars.getD k {}).arrived.contains b.idx
    | .cbar k => !(t.cbars.getD k {}).arrived.contains b.idx
    | _ => false
  { b with handler := b.handler.map (fun h => if passed h.sleep then { h with sleep := .ready } else h) }

/-- Every beam of the team resumed, once each has been restored (R378). -/
def State.gather (s : State) (core : Nat) : State :=
  let slots := (s.core core).beams.keys.eraseDups.filter (fun k => (s.beam? core k).any (·.resp.isNone))
  if slots.all (fun k => (s.beam? core k).any (·.sleep == .joining)) then
    slots.foldl (fun s k =>
      (match (s.core core).team with
        | some t => s.updBeam core k (fun b => b.pastBars t)
        | none => s).returnFrom core k) s
  else s

/-- R378: the beam's state restored from a block; the team resumes together, as from a barrier whose arrivals are releases (R202). -/
def execCtxld (h : Head) (s : State) : Out :=
  s.issue .ctxld h .none (fun x s =>
    let va := x.blockVa
    let status (code : Nat) : RegOut := x.outWords 0 [{ val := BitVec.ofNat 32 code }]
    let size := x.f.b.decl.blockSize
    if x.lanes.isEmpty then .sent s
    else if s.releaseHold x then .hold
    else if va % 4096 ≠ 0 then .send (status 3) s
    else match s.blockPlaces x va size { r := true } with
      | (.fail c, s) => .send (status c) s
      | (.walk, s) => .walk s
      | (.held, _) => .hold
      | (.at_ ps, s) =>
        let s := ps.foldl (fun s p => match p with | .here pa => s.found x.f.t.vd pa 4096 | _ => s) s
        let (bs, bad) := s.getBlock ps
        match s.blockOf x bs bad with
        | none => .send (status 5) (s.meets x (!bad.isEmpty))
        | some b =>
          let gen := (s.core x.f.core).beamGens.getD x.f.slot 0 + 1
          let s := s.updCore x.f.core (fun c => { c with beamGens := c.beamGens.put x.f.slot gen })
          let s := (s.issued x (!bad.isEmpty)).setBeam x.f.core x.f.slot
            { b.reload bs bad with gen := gen, resp := none, sleep := .joining, pend := none, ordered := x.f.b.ordered }
          .leave ((s.gather x.f.core).seeNow x.f.core))

/-! ### The error queue (R379) -/

/-- The four counters, lowest first. -/
def VDev.counters (d : VDev) : Nat :=
  packCodes 64 [d.dropped.toNat, d.overflow.toNat, d.poisoned.toNat, d.retries.toNat]

/-- R379: the oldest entry removed, or the counters read. -/
def execErrq (h : Head) (s : State) : Out :=
  s.issue .errq h .none (fun x s =>
    let words (v : Nat) : RegOut := x.outWords 0 ((List.range 8).map (fun k => { val := BitVec.ofNat 32 (v / 2 ^ (32 * k)) }))
    if x.lanes.isEmpty then .sent s
    else match s.vds.look x.f.t.vd with
      | none => .sent s
      | some d =>
        if x.val h.a .n32 0 % 2 = 1 then .send (words d.counters) s
        else
          .send (words ((d.errq.head?.map (·.toNat)).getD 0))
            (s.updVd x.f.t.vd (fun d => { d with errq := d.errq.drop 1 })))

/-! ### kill (R380, R381) -/

/-- A responder beam ended, with its responders that have not answered (R310, R380). -/
def State.killResponder (s : State) (core slot : Nat) (t : Team) : State :=
  let s := s.clearBeams core (some slot) false
  ((s.dropTeam core (some slot)).failResponders t (List.range 32)).settleLaunch t.vd t.launch

/-- The issuing team, or its launch, killed; teams of the launch that have not been placed never run (R380). -/
def State.kill (s : State) (x : Iss) (all : Bool) : State :=
  let t := x.f.t
  let pc := x.pc.toNat
  match x.f.b.resp with
  | some r => (s.killResponder x.f.core r t).pushErr t.vd (errEntry 0x0A 3 0 1 (s.launchLow t.vd t.launch) x.f.core pc 0)
  | none =>
    if all then s.killLaunch t.vd t.launch 3 x.f.core pc
    else
      let n := s.launchLow t.vd t.launch
      let s := s.updLaunch t.vd t.launch (fun l => { l.fix 3 with next := l.count, again := [] })
      (s.killTeam t.vd t.launch t.index (.resident x.f.core)).pushErr t.vd (errEntry 0x0A 3 0 1 n x.f.core pc 0)

/-- R380: the issuing team, or every team of its launch, killed. -/
def execKill (h : Head) (s : State) : Out :=
  s.issue .kill h .none (fun x s =>
    if x.lanes.isEmpty then .sent s else .leave ((s.issued x false).kill x (x.val h.a .n32 0 % 2 == 1)))

end Sys2Proof.Machine
end

