-- ==== Sys2Proof/Machine/Preempt.lean ====
section
/-!
DEFINITION. Teams taken off their cores: discards (R295), saves (R296, R376) and whole clusters (R235).
-/
namespace Sys2Proof.Machine

/-- A team's state in its launch. -/
def State.setTeamSt (s : State) (v l i : Nat) (st : TeamSt) : State :=
  s.updLaunch v l (fun x => { x with teams := x.teams.put i st })

/-- A team no longer among the placed ones. -/
def State.unplace (s : State) (v l i : Nat) : State := s.updLaunch v l (fun x => { x with placed := x.placed.filter (· != i) })

/-- A discard starts: beams stop, results in flight are dropped, and the allocation stays while copies need it (R295). -/
def State.discardTeam (s : State) (core : Nat) : State :=
  match (s.core core).team with
  | none => s
  | some t =>
    let s := (s.clearBeams core none true).dropTeam core none
    (s.setTeamSt t.vd t.launch t.index (.discarding core)).unplace t.vd t.launch t.index

/-- A save starts: every beam of the team is ordered into its handler (R296). -/
def State.saveTeam (s : State) (core : Nat) : State :=
  match (s.core core).team with
  | none => s
  | some t =>
    let s := s.setTeamSt t.vd t.launch t.index (.saving core)
    (s.teamBeams core).foldl (fun s e => s.order core e.1) s

/-- Is the team of a core resident, and not on its way off (R297)? -/
def State.residentAt (s : State) (core : Nat) : Bool :=
  match (s.core core).team with
  | some t => match (s.launch? t.vd t.launch).bind (fun l => l.teams.look t.index) with
    | some (.resident c) => c == core
    | _ => false
  | none => false

/-- The charge of a switch-out: once for a cluster's teams together (R292). -/
def State.chargeOut (s : State) (t : Team) : State :=
  match s.launch? t.vd t.launch with
  | some l => s.charge t.vd l.queue (if t.position.isSome then 16 else 1)
  | none => s

/-- A team pre-empted, with its whole cluster (R235, R294): discarded where its kernel is idempotent, and saved otherwise. A
discarded team is charged at once; a saved one when it is switched out (R292). -/
def State.preempt (s : State) (core : Nat) : State :=
  match (s.core core).team with
  | none => s
  | some t =>
    let cs := (s.clusterCores core none).filter s.residentAt
    if t.decl.idem then (cs.foldl State.discardTeam s).chargeOut t
    else cs.foldl State.saveTeam s

/-- A beam set back to an instruction that was abandoned: it is awake, and the threads that issued it run there next (R388). Where the beam has
entered its handler since, they are frozen there, with `%tpc` at the instruction and DONE 0. A beam does not leave the handler that issued
it before it completes (`rte` holds). DEDUCED (log entry 177). -/
def Beam.setBack (b : Beam) (p : PrismOut) : Beam :=
  match b.handler, p.handled with
  | some h, false =>
    if h.frozen.holds p.path then
      { b with tpc := p.pc, tcause := withDone b.tcause false
               handler := some { h with frozen := h.frozen.setBack p.path p.pc, nas := none, sleep := .ready, pend := none } }
    else b
  | none, true => b
  | _, _ => if b.flow.holds p.path then { b with sleep := .ready, pend := none, flow := b.flow.setBack p.path p.pc } else b

/-- A core left by its team after a second residue mismatch (R388): the beam traps with `%tpc` at the abandoned instruction. A
responder beam ends as an error. -/
def State.preemptAt (s : State) (core slot : Nat) (p : PrismOut) : State :=
  match s.beam? core slot with
  | none => s
  | some b =>
    match b.resp, s.teamOf core b with
    | some r, some t => (s.killResponder core r t).preempt core
    | _, _ => (s.setBeam core slot (b.setBack p)).preempt core

end Sys2Proof.Machine
end

