-- ==== Sys2Proof/Machine/Fill.lean ====
section
/-!
DEFINITION. Results that arrive: register fills (R64) and prism completions (R146, R388), with the deviation ring (R106).
-/
namespace Sys2Proof.Machine

/-- A result in flight done with, and with it the access that it waited for. -/
def State.endFill (s : State) (f : Fill) : State :=
  let s := { s with fills := s.fills.filter (·.id != f.id) }
  let s := s.undrain f.beam f.id
  match f.gop with
  | some g => ({ s with gops := s.gops.filter (·.id != g) }).undrain f.beam g
  | none => s

/-- A result with no access delivered: a status whose beam is gone is counted (R189). -/
def State.deliverFill (s : State) (f : Fill) : State :=
  match f.drop with
  | some v => s.deliverOrDrop v f.beam f.names f.out
  | none => s.deliver f.beam f.names f.out

/-- A load performed at its home dies as its result arrives, and any access's returned values delivered (R64, R185). -/
def State.fillFrom (s : State) (f : Fill) (g : GOp) : State :=
  let r := if g.kind == .load then s.performLoad g else ([], s)
  let got := { g with got := g.got ++ r.1 }
  let s := r.2.readPoison g r.1
  (s.deliver f.beam f.names (got.out f.names)).endFill f

/-- May the access that a result waits for deliver it? A load is performed by its result's arrival. -/
def State.fillReady (s : State) (g : GOp) : Bool := if g.kind == .load then g.acked && s.gReady g else g.settled

/-- R64: the result of an instruction that empties its destination arrives. A prism result arrives with its completion, and
the status of `dirmove` with its last ack. -/
def execRegisterFill (id : Nat) (s : State) : Out :=
  match s.fills.find? (·.id == id) with
  | none => .next s
  | some f =>
    if f.prism.isSome || s.moves.any (fun m => m.fill == id) then .next s
    else match f.gop with
      | none => .next ((s.deliverFill f).endFill f)
      | some gid =>
        match s.gops.find? (·.id == gid) with
        | none => .next (s.endFill f)
        | some g => if s.fillReady g then .next (s.fillFrom f g) else .next s

/-! ### The prism (R104 to R106, R146, R388) -/

/-- An entry written to the deviation ring of a virtual device (R106). The write fails, and the entry is dropped, where WRITTEN is lost to
poison, or the segments are in self-refresh or off (R107; log entry 154). -/
def State.ringWrite (s : State) (v : Nat) (e : BitVec 256) : State :=
  match s.vds.look v with
  | none => s
  | some d =>
    let base := d.field 592 48
    if s.linePoisoned base 8 || decide (3 ≤ d.stage) then s else
    let written := s.readNat base 8
    let at_ := base + 64 + 32 * (written % 2 ^ (d.field 588 4 + 4))
    (s.storeNat at_ 32 e.toNat).storeNat base 8 ((written + 1) % 2 ^ 64)

/-- An entry of type 0x02: a residue retry (R379, R388). -/
def State.noteRetry (s : State) (core : Nat) (p : PrismOut) : State :=
  (s.pushErr p.vd (errEntry 0x02 0 0 1 (s.launchLow p.vd p.launch) core p.pc.toNat 0)).updVd p.vd (fun d =>
    { d with retries := d.retries + 1 })

/-- A beam whose completed instruction it slept in (R142, R146): the matrix trap where a lane raised an exception, or the
instruction's selector; then an order that waited (R368). -/
def State.wakePrism (s : State) (r : BeamRef) (p : PrismOut) : State :=
  match s.ref? r with
  | none => s
  | some b =>
    if b.sleep != .prism then s
    else
      let s := s.setBeam r.core r.slot { b with sleep := .ready }
      if p.mte && p.exc != 0 then
        (s.setBeam r.core r.slot { b with sleep := .ready, pend := none }).takeTrap r.core r.slot
          { cause := 0x05, done := true } p.pc b.pend
      else
        let s := s.finish r.core r.slot
        if b.ordered then s.order r.core r.slot else s

/-- A prism instruction completes: destinations are written and full, `%emask` and `%ekind` updated (R145, R146). -/
def State.completePrism (s : State) (f : Fill) (p : PrismOut) : State :=
  let s := match p.sample with
    | some e => s.ringWrite p.vd e
    | none => s
  let s := s.deliver f.beam f.names f.out
  let s := if (s.ref? f.beam).isSome then s.updBeam f.beam.core f.beam.slot (fun b => b.record p.mask p.exc p.kinds) else s
  (s.endFill f).wakePrism f.beam p

/-- A prism instruction abandoned after a second mismatch (R388): its destinations are full with the values before it, its
team leaves the core, also where the beam itself has exited, and the core is retired. -/
def State.abandonPrism (s : State) (f : Fill) (p : PrismOut) : State :=
  let s := s.deliver f.beam f.names {}
  let s := s.endFill f
  let stands : Bool := match (s.core f.beam.core).team with | some t => p.team == some t.gen && t.vd == p.vd | none => false
  let s :=
    if (s.ref? f.beam).isSome then s.preemptAt f.beam.core f.beam.slot p
    else if stands then s.preempt f.beam.core
    else s
  s.updCore f.beam.core (fun c => { c with retired := true })

/-- R146: a prism instruction completes, after the given number of residue mismatches (R388). -/
def execPrismComplete (id misses : Nat) (s : State) : Out :=
  match s.fills.find? (·.id == id) with
  | none => .next s
  | some f =>
    match f.prism with
    | none => .next s
    | some p =>
      if misses = 0 then .next (s.completePrism f p)
      else
        let s := s.noteRetry f.beam.core p
        if misses = 1 then .next (s.completePrism f p) else .next (s.abandonPrism f p)

end Sys2Proof.Machine
end

