-- ==== Sys2Proof/Machine/Launch.lean ====
section
/-!
DEFINITION. Launches: the command processor's own accesses to memory, shape expressions (R287), dispatch and judgement (R285,
R286, R297), status words (R301, R302), job records (R363 to R365), deadlines and watchdogs (R299, R300).
-/
namespace Sys2Proof.Machine

/-! ### Accesses of the command processor -/

/-- Where an access of the command processor goes, by the page tables of a virtual device (R283, R285). -/
def State.cpPlace (s : State) (v va n : Nat) (need : Rights) : Place :=
  if 2 ^ 56 ≤ va then .fail 1
  else match s.walk v va with
    | some (log, leaf) =>
      s.place v { vd := v, page := va / 2 ^ log * 2 ^ log, log := log, leaf := BitVec.ofNat 64 leaf } va n need
    | none => .fail 1

/-- Bytes read by the command processor, line by line, or the code of R188; a line that holds poison fails with code 4, so that nothing is
done by what its lost bits may have been (R7; log entry 47). -/
def State.cpRead (s : State) (v va n : Nat) : Except Nat (List Byte) × State :=
  (lineParts va n).foldl (fun acc p =>
    match acc with
    | (.error e, s) => (.error e, s)
    | (.ok bs, s) =>
      match s.cpPlace v p.1 p.2 { r := true } with
      | .here pa =>
        let s := s.found v pa p.2
        (if s.linePoisoned pa p.2 then .error 4 else .ok (bs ++ s.readBytes pa p.2), s)
      | .peer _ =>
        let (k, s) := s.take
        (.ok (bs ++ (List.range p.2).map (Config.remoteByte k)), s)
      | .fail c => (.error c, s)) (.ok [], s)

/-- Do the ports hold an access of the command processor to some bytes (R392)? -/
def State.cpHeld (s : State) (v va n : Nat) (need : Rights) : Bool :=
  s.mgmt.ports.any (fun e => e.2 == .calibrating) && (lineParts va n).any (fun p =>
    match s.cpPlace v p.1 p.2 need with
    | .here pa => s.portOut pa
    | .peer dev => s.link v dev == .calibrating
    | .fail _ => false)

/-- Do the ports hold the write of a status word (R302, R392)? -/
def State.statHeld (s : State) (v va : Nat) : Bool := va != 0 && va % 8 == 0 && s.cpHeld v va 8 { w := true }

/-- Do the ports hold the status word of a graph that a node belongs to? -/
def State.graphHeld (s : State) (v : Nat) (node : Option (Nat × Nat)) : Bool :=
  match node, s.vds.look v with
  | some (g, _), some d => (d.graphs.look g).any (fun x => s.statHeld v x.stat)
  | _, _ => false

/-- The state after bytes have been read by the command processor: an error found in them has been entered (R383; log entry 118). -/
def State.saw (s : State) (v va n : Nat) : State := (s.cpRead v va n).2

/-- Bytes of one line written by the command processor: the state, or none where the write fails, at a port that refuses it among others
(R353, R392). -/
def State.cpWrite (s : State) (v va : Nat) (bs : List Byte) : Option State :=
  match s.cpPlace v va bs.length { w := true } with
  | .here pa => if s.shut pa then none else some (s.storeBytes pa bs false)
  | .peer dev => if s.link v dev == .failed then none else some s
  | .fail _ => none

/-- A write of HEAD or STATUS: no wake write (R336). -/
def State.cpQuiet (s : State) (v va : Nat) (bs : List Byte) : State :=
  match s.cpWrite v va bs with
  | some t => { t with wakeBits := s.wakeBits }
  | none => s

/-- A status word written as a sys release; a failed write leaves an entry of type 0x0B (R302). An address of 0 is none, for a graph packet
too (DESIGN CHOICE, log entry 156). -/
def State.statusWord (s : State) (v va word launch sub : Nat) : State :=
  if va = 0 then s
  else
    let done : Option State := if va % 8 ≠ 0 then none else s.cpWrite v va (leBytes 8 word)
    match done with
    | some s => s
    | none => s.pushErr v (errEntry 0x0B sub 0 1 launch nobody 0 va)

/-! ### Queues and their work -/

/-- A queue. -/
def State.queue? (s : State) (v q : Nat) : Option Queue := (s.vds.look v).bind (fun d => d.queues.look q)

/-- Is a launch, copy or graph of a queue short of Done (R283, R284)? -/
def State.work (s : State) (v q : Nat) : Bool :=
  s.pcopies.any (fun c => c.vd == v && c.queue == q) ||
    (match s.vds.look v with
     | some d => d.launches.any (fun l => l.2.queue == q && l.2.st != .done) || d.graphs.any (fun g => g.2.queue == q && !g.2.done)
     | none => false)

/-- Work of a queue has ended: from then on it is idle, where nothing else of it is in flight (R282). -/
def State.workDone (s : State) (v q : Nat) : State :=
  let (k, s) := s.name
  s.updQueue v q (fun x => if x.blocked == .empty || x.status != 0 then { x with since := k } else x)

/-- The firmware that dispatches for a queue (R391): that of its thread, or of the first thread that has any. -/
def State.firmware (s : State) (x : Queue) : BitVec 512 :=
  let own := x.thread.bind (fun t => (s.threads.getD t {}).fw)
  (own.orElse (fun _ => s.threads.findSome? (·.2.fw))).getD 0

/-! ### Job records (R363 to R365) -/

/-- The header of a job record (R364). -/
def recordHeader (ctx kernel queue vd code novl killed poison launch seq : Nat) (signer fw : BitVec 512) : Nat :=
  0x5244_4A4B + 2 ^ 32 * (4992 + 72 * novl) + 2 ^ 776 * ctx + 2 ^ 784 * kernel + 2 ^ 800 * queue + 2 ^ 816 * vd + 2 ^ 824 * code +
    2 ^ 832 * novl + 2 ^ 848 * killed + 2 ^ 864 * poison + 2 ^ 896 * launch + 2 ^ 960 * seq + 2 ^ 1024 * signer.toNat +
    2 ^ 1536 * fw.toNat

/-- A signed record: its text, then the signature section of R49 under the attestation key (R364). -/
def signedRecord (text : List Byte) : List Byte :=
  let digest := Config.sha3_512 text
  text ++ leBytes 64 (Config.sha3_512 Config.attestationKey).toNat ++ (List.range 4627).map (Config.attestationByte digest) ++
    List.replicate 45 0

/-- A record kept for the reader, with the next SEQ (R365). -/
def State.keepRecord (s : State) (v : Nat) (bytes : Nat → List Byte) : State :=
  s.updVd v (fun d => { d with recKept := d.recKept ++ [(d.recNext, bytes d.recNext)], recNext := d.recNext + 1 })

/-- The record of a launch (R363, R364). DESIGN CHOICE (log entry 191): FWDIG is zero for one that was never dispatched. -/
def State.launchRecord (s : State) (v : Nat) (l : Launch) (code : Nat) : State :=
  let ctx := (s.queue? v l.queue).elim 0 (·.ctx)
  s.keepRecord v (fun seq => signedRecord
    (leBytes 256 (recordHeader ctx (bitsOf l.packet.toNat 16 16) l.queue v code l.ovls.length (min l.killed 0xFFFF) l.poison
        (l.number.getD (2 ^ 64 - 1)) seq (Config.sha3_512 Config.attestationKey) l.fw) ++
      (l.ovls.map (fun o => leBytes 64 o.2.toNat ++ leBytes 8 o.1)).flatten))

/-- R365: room appears in the record ring, and the oldest kept record is written to it. A virtual device whose segments are in self-refresh
or off keeps its records (R335; log entry 147), and so does one whose ring has lost WRITTEN and CONSUMED to poison (R7; log entry 47). -/
def execJobRecordFlush (vd : Nat) (s : State) : Out :=
  match s.vds.look vd with
  | none => .next s
  | some d =>
    match d.recKept with
    | [] => .next s
    | (seq, bytes) :: rest =>
      let n := 2 ^ d.recLog
      if d.recBase = 0 || 3 ≤ d.stage || s.linePoisoned d.recBase 16 || decide (s.readNat (d.recBase + 8) 8 + n ≤ seq) then .next s
      else
        let s := s.storeBytes (d.recBase + 32768 * (1 + seq % n)) bytes false
        .next ((s.storeNat d.recBase 8 (seq + 1)).updVd vd (fun d => { d with recKept := rest }))

/-! ### Done (R297, R301, R302) -/

/-- The launch status word (R301). -/
def Launch.word (l : Launch) (code : Nat) : Nat := code + 2 ^ 16 * min l.killed 0xFFFF + 2 ^ 32 * l.low

/-- The number of a graph's first node (R364). DESIGN CHOICE (log entry 192): all ones where it has none. -/
def Graph.number (d : VDev) (g : Graph) : Nat :=
  match (g.nodes.look 0).bind (·.launch) with
  | some l => ((d.launches.look l).bind (·.number)).getD (2 ^ 64 - 1)
  | none => 2 ^ 64 - 1

/-- The status of a graph: that of its first failed node, or OK (R290). -/
def Graph.code (g : Graph) : Nat := (g.nodes.findSome? (fun e => match e.2.st with | .done c => if c = 0 then none else some c | _ => none)).getD 0

/-- A graph done with a status: its status word, then its record (R290, R363). -/
def State.finishGraph (s : State) (v g code : Nat) : State :=
  match (s.vds.look v).bind (fun d => (d.graphs.look g).map (fun x => (d, x))) with
  | none => s
  | some (d, x) =>
    let n := Graph.number d x
    let q := d.queues.look x.queue
    let s := (s.updVd v (fun d => { d with graphs := d.graphs.upd g (fun x => { x with done := true }) })).workDone v x.queue
    let s := s.statusWord v x.stat (code + 2 ^ 32 * (n % 2 ^ 32)) (n % 2 ^ 32) code
    s.keepRecord v (fun seq => signedRecord (leBytes 256 (recordHeader (q.elim 0 (·.ctx)) 0xFFFF x.queue v code 0 0 0 n seq
      (Config.sha3_512 Config.attestationKey) (q.elim 0 s.firmware))))

/-- A graph whose nodes have all completed is done (R290). -/
def State.settleGraph (s : State) (v g : Nat) : State :=
  match (s.vds.look v).bind (fun d => d.graphs.look g) with
  | none => s
  | some x =>
    if !x.done && x.nodes.all (fun e => match e.2.st with | .done _ => true | _ => false) then s.finishGraph v g x.code else s

/-- A node ended with a status. -/
def State.endNode (s : State) (v g n code : Nat) : State :=
  (s.updNode v g n (fun nd => { nd with st := .done code })).settleGraph v g

/-- A launch done with a status: its status word, warm-start slot, record and edges (R286, R297, R302, R363). -/
def State.finishLaunch (s : State) (v l code : Nat) : State :=
  match s.launch? v l with
  | none => s
  | some x =>
    let s := (s.updLaunch v l (fun x => { x with st := .done, code := some code })).workDone v x.queue
    let s := s.statusWord v (x.stat.getD 0) (x.word code) x.low code
    let s := if code = 0 && x.packet.getLsbD 9 then
        s.updQueue v x.queue (fun q => { q with
          warm := q.warm.upd (bitsOf x.packet.toNat 10 4) (fun w => { w with phase := !w.phase }) })
      else s
    let s := s.launchRecord v x code
    match x.node with
    | some (g, n) => s.endNode v g n code
    | none => s

/-! ### Shape expressions (R287) -/

/-- One operation on the stack, top first: none where it breaks R287. -/
def shapeOp (var : Nat → Option Nat) (op arg : Nat) : List Nat → Option (List Nat)
  | st =>
    let push (x : Nat) (st : List Nat) : Option (List Nat) := if st.length < 8 then some (x % 2 ^ 64 :: st) else none
    match op with
    | 1 => if arg < 32 then (var arg).bind (fun x => push x st) else none
    | 2 => push arg st
    | _ =>
      match st with
      | b :: a :: rest =>
        match op with
        | 3 => push (a + b) rest
        | 4 => push (a + (2 ^ 64 - b)) rest
        | 5 => push (a * b) rest
        | 6 => if b = 0 then none else push ((a + b - 1) / b) rest
        | 7 => push (min a b) rest
        | 8 => push (max a b) rest
        | 9 => push (a * 2 ^ (b % 64)) rest
        | 10 => push (a / 2 ^ (b % 64)) rest
        | 11 => push (a &&& b) rest
        | _ => none
      | _ => none

/-- The operations of an expression evaluated in order, up to `end`. -/
def shapeRun (var : Nat → Option Nat) : List Nat → List Nat → Option (List Nat)
  | [], st => some st
  | w :: ws, st => if w / 2 ^ 12 = 0 then some st else (shapeOp var (w / 2 ^ 12) (w % 2 ^ 12) st).bind (shapeRun var ws)

/-- The value of an expression of 32 bytes, or none where it ends the launch with SHAPE. -/
def shapeValue (var : Nat → Option Nat) (bs : List Byte) : Option Nat :=
  match shapeRun var ((List.range 16).map (fun i => leNat ((bs.drop (2 * i)).take 2))) [] with
  | some [x] => if x < 2 ^ 32 then some x else none
  | _ => none

/-- A shape variable as an expression reads it: none where it is poisoned (R385). -/
def VDev.shapeVar (d : VDev) (ctx i : Nat) : Option Nat :=
  let x := d.vars.getD (shapeKey ctx i) {}
  if x.pz then none else some x.val.toNat

/-- The three extents of a block. -/
def VDev.extents (d : VDev) (ctx : Nat) (bs : List Byte) : Option (List Nat) :=
  match shapeValue (d.shapeVar ctx) (bs.take 32), shapeValue (d.shapeVar ctx) ((bs.drop 32).take 32),
      shapeValue (d.shapeVar ctx) ((bs.drop 64).take 32) with
  | some a, some b, some c => if a * b * c < 2 ^ 32 then some [a, b, c] else none
  | _, _, _ => none

/-! ### Dispatch (R285, R286, R297) -/

/-- Beams per team, and teams per cluster. -/
def Launch.beams (l : Launch) : Nat := bitsOf l.packet.toNat 32 5 + 1
def Launch.clustered (l : Launch) : Bool := l.packet.getLsbD 5
def Launch.ctas (l : Launch) : Nat := bitsOf l.packet.toNat 37 4 + 1

/-- Does a team of some beams fit a core (R138)? -/
def Decl.fits (d : Decl) (beams : Nat) : Bool :=
  let q := (beams + 3) / 4
  decide (q ≤ 16) && decide (q * d.vregs ≤ 1024) && decide (q * d.mcap * d.mcount ≤ 1024)

/-- The bytes of a team's save area (R377). -/
def Decl.areaSize (d : Decl) (beams : Nat) : Nat := d.blockAt beams

/-- The clusters of a virtual device none of whose positions is empty (R389). -/
def State.wholeClusters (s : State) (d : VDev) : List Nat :=
  d.clusters.filter (fun k => (List.range 16).all (fun i => !s.mgmt.gone.contains (16 * k + i)))

/-- The bytes of the resident quota that the allocations of launches and graphs take (R290, R377). -/
def VDev.allocated (d : VDev) : Nat :=
  (d.launches.map (fun e => if e.2.areas.isSome && e.2.st != .done then
      d.cores.length * ((d.kernels.look e.2.handle).elim 0 (fun k => k.decl.areaSize e.2.beams)) else 0)).sum +
    (d.graphs.map (fun g => if g.2.done then 0 else
      (g.2.nodes.map (fun n => if n.2.hasBin then n.2.rsize * (n.2.spill + (d.cores.length + 1) * n.2.fill) else 0)).sum)).sum

/-- Does an allocation of some bytes fit the resident quota? -/
def VDev.quotaHolds (d : VDev) (n : Nat) : Bool := decide (d.allocated + n ≤ d.segments.length * 2 ^ 30)

/-- The argument words of a launch, with the buffers of its warm-start slot (R285, R286). -/
def Launch.argWords (l : Launch) (w : Option Warm) : List Word :=
  let a : List Word := (List.range 11).map (fun i => BitVec.ofNat 32 (bitsOf l.packet.toNat (128 + 32 * i) 32))
  match l.packet.getLsbD 9, w with
  | true, some w =>
    let (wr, rd) := if w.phase then (w.bufA, w.bufB) else (w.bufB, w.bufA)
    a.take 7 ++ [BitVec.ofNat 32 wr, BitVec.ofNat 32 (wr / 2 ^ 32), BitVec.ofNat 32 rd, BitVec.ofNat 32 (rd / 2 ^ 32)]
  | _, _ => a

/-- What a launch's judgement finds, in the order of R297: a status that ends it, or its extents. -/
def State.judge (s : State) (d : VDev) (q : Queue) (l : Launch) (block : Except Nat (List Byte)) : Except Nat (Kernel × List Nat) :=
  let slot := q.warm.look (bitsOf l.packet.toNat 10 4)
  match d.kernels.look (bitsOf l.packet.toNat 16 16) with
  | none => .error 9
  | some k =>
    if l.packet.getLsbD 9 && slot.isNone then .error 9
    else
      let ext : Option (List Nat) :=
        match block with
        | .error _ => none
        | .ok bs =>
          if leNat ((bs.drop 104).take 24) ≠ 0 then none
          else if l.bin then some []
          else match d.extents q.ctx bs with
            | some e => if l.clustered && e.foldl (· * ·) 1 % l.ctas != 0 then none else some e
            | none => none
      match ext with
      | none => .error 6
      | some e =>
        let area : Nat := if k.decl.idem then 0 else d.cores.length * k.decl.areaSize l.beams
        if !k.decl.fits l.beams || (l.clustered && (s.wholeClusters d).isEmpty) || !d.quotaHolds area then .error 5
        else .ok (k, e)

/-- STAT of an extent block, where the block could be read (R285). -/
def statIn : Except Nat (List Byte) → Option Nat
  | .ok bs => some (leNat ((bs.drop 96).take 8))
  | .error _ => none

/-- STAT of the extent block of a launch packet, where the block can be read (R285). -/
def State.statOf (s : State) (v : Nat) (packet : BitVec 512) : Option Nat := statIn (s.cpRead v (bitsOf packet.toNat 64 64) 128).1

/-- Do the ports hold the dispatch of a launch packet (R392): the read of its extent block, or the write of a status word that its dispatch
may end in? -/
def State.dispatchHeld (s : State) (v : Nat) (packet : BitVec 512) (node : Option (Nat × Nat)) : Bool :=
  s.cpHeld v (bitsOf packet.toNat 64 64) 128 { r := true } || (s.statOf v packet).any (s.statHeld v) || s.graphHeld v node

/-- A launch dispatched: numbered, judged, and running or done (R297). -/
def State.dispatch (s : State) (v l : Nat) : State :=
  match s.vds.look v with
  | none => s
  | some d =>
    match d.launches.look l with
    | none => s
    | some x =>
      match d.queues.look x.queue with
      | none => s
      | some q =>
        let (block, s) := s.cpRead v (bitsOf x.packet.toNat 64 64) 128
        let fw := s.firmware q
        let s := (s.updVd v (fun d => { d with nextNum := d.nextNum + 1 })).updLaunch v l (fun x => { x with
          st := .dispatched, number := some d.nextNum, stat := statIn block, fw := fw, handle := bitsOf x.packet.toNat 16 16 })
        match s.judge d q x block with
        | .error code => s.finishLaunch v l code
        | .ok (k, e) =>
          let n := if x.bin then 0 else e.foldl (· * ·) 1
          if n = 0 && !x.bin then s.finishLaunch v l 0
          else
            let (p, s) := s.take
            s.updLaunch v l (fun x => { x with
              st := .running, ext := e, count := n, args := x.argWords (q.warm.look (bitsOf x.packet.toNat 10 4))
              areas := if k.decl.idem then none else some (4096 * (Config.placement p % 2 ^ 40)) })

/-- A launch made from a packet, in state Queued: its number in the virtual device, and the state. -/
def State.newLaunch (s : State) (v q : Nat) (packet : BitVec 512) (node : Option (Nat × Nat)) (bin : Bool) (dline : Nat) :
    Nat × State :=
  match s.vds.look v with
  | none => (0, s)
  | some d =>
    (d.nextL, s.updVd v (fun d => { d with
      nextL := d.nextL + 1
      launches := d.launches.put d.nextL { queue := q, packet := packet, node := node, bin := bin, dline := dline } }))

/-- May the virtual device dispatch (R335, R365)? It is not collapsed, and it keeps fewer than 64 records. -/
def VDev.dispatches (d : VDev) : Bool := d.up && decide (d.recKept.length < 64)

/-- R297: a queued launch is dispatched, in queue order. -/
def execLaunchDispatch (vd launch : Nat) (s : State) : Out :=
  match s.vds.look vd with
  | none => .next s
  | some d =>
    match d.launches.look launch with
    | none => .next s
    | some x =>
      let earlier : Bool := d.launches.any (fun e => decide (e.1 < launch) && e.2.queue == x.queue && e.2.st == .queued)
      if x.st == .queued && !earlier && d.dispatches && !s.dispatchHeld vd x.packet x.node then .next (s.dispatch vd launch)
      else .next s

/-- Is something of a launch still in flight (R251, R297)? -/
def State.inFlight (s : State) (v l : Nat) : Bool :=
  s.copies.any (fun c => c.vd == v && c.launch == l) || s.gops.any (fun g => g.vd == v && g.launch == l) ||
    s.arrivals.any (fun a => a.vd == v && a.launch == l) || s.ovls.any (fun o => o.vd == v && o.launch == some l)

/-- R297: a draining launch whose copies have finished is done. -/
def execLaunchDone (vd launch : Nat) (s : State) : Out :=
  let s' := (s.settleTrigger vd launch).settleLaunch vd launch
  match s'.launch? vd launch with
  | some x =>
    if x.st == .draining && !s'.inFlight vd launch && !s'.statHeld vd (x.stat.getD 0) && !s'.graphHeld vd x.node then
      .next (s'.finishLaunch vd launch (x.code.getD 0))
    else .next s'
  | none => .next s

/-! ### Deadlines and watchdogs (R299, R300) -/

/-- A launch that has not reached Draining killed with a status; one that was never dispatched is done at once (R300, R352), with no status
word, since its extent block and so its STAT were never read (DESIGN CHOICE, log entry 58). -/
def State.endLaunch (s : State) (v l code : Nat) : State :=
  match s.launch? v l with
  | none => s
  | some x =>
    match x.st with
    | .queued => (s.pushErr v (errEntry 0x0A code 0 0 x.low nobody 0 0)).finishLaunch v l code
    | .dispatched | .running => s.killLaunch v l code nobody 0
    | _ => s

/-- R299: a deadline expires before its launch drains, once. -/
def execDeadlineExpiry (vd launch : Nat) (s : State) : Out :=
  match s.launch? vd launch with
  | some x =>
    if x.dline != 0 && (x.st == .dispatched || x.st == .running) then
      .next ((s.cpTick.updLaunch vd launch (fun x => { x with dline := 0 })).endLaunch vd launch 1)
    else .next s
  | none => .next s

/-- The lanes of a parked spawn that wait, lowest first. -/
def Sleep.parked : Sleep → Option Nat
  | .spawning _ (r :: _) => some r.lane
  | .spawning _ [] => some 0
  | _ => none

/-- The beams of a queue that are parked in `spawn`, each with its lowest lane not written. DESIGN CHOICE (log entry 171): a beam in its
pre-emption handler, or saved, is not parked; its `spawn` is issued again when it resumes (R250). -/
def State.parkedOf (s : State) (v q : Nat) : List (Nat × Nat × Nat) :=
  s.cores.flatMap (fun c => c.2.beams.filterMap (fun b =>
    match b.2.sleep.parked, s.teamOf c.1 b.2 with
    | some lane, some t =>
      if t.vd = v && (s.launch? v t.launch).any (fun l => l.queue == q) then some (c.1, b.1, lane) else none
    | _, _ => none))

/-- A parked spawn overflows (R250). -/
def State.overflowSpawn (s : State) (core slot lane : Nat) : State :=
  match s.beam? core slot with
  | none => s
  | some b =>
    (s.setBeam core slot { b with sleep := .ready, pend := none }).takeTrap core slot { cause := 0x0D, lane := lane } b.flow.pc none

/-- The edges that end at a node: source and whether a trigger edge. -/
def edgesTo (nodes : FMap Node) (n : Nat) : List (Nat × Bool) :=
  nodes.flatMap (fun e => (List.range 16).filterMap (fun k =>
    match e.2.succAt k with
    | some (trig, m) => if m = n then some (e.1, trig) else none
    | none => none))

/-- The status with which a node has completed. -/
def Node.code? (n : Node) : Option Nat := match n.st with | .done c => some c | _ => none

/-- The nodes that some nodes depend on through any chain of edges, those first found first. -/
def sourcesOf (nodes : FMap Node) : Nat → List Nat → List Nat
  | 0, found => found
  | k + 1, found =>
    let new := (found.flatMap (fun n => (edgesTo nodes n).map (·.1))).filter (fun m => !found.contains m)
    if new.isEmpty then found else sourcesOf nodes k (found ++ new.eraseDups)

/-- Has a node ended with a status other than OK, or has an event fixed such a status for its launch (R291, R299, R408)? -/
def VDev.nodeFails (d : VDev) (m : Node) : Bool :=
  m.code?.any (· != 0) || (m.launch.bind d.launches.look).any (fun x => x.code.any (· != 0))

/-- Does a node that a node depends on, through any chain of edges, fail (R291, R299)? DEDUCED (log entry 173): from the moment that the
status is fixed, no dependent of it is dispatched. -/
def VDev.failedBefore (d : VDev) (nodes : FMap Node) (n : Nat) : Bool :=
  (sourcesOf nodes nodes.length ((edgesTo nodes n).map (·.1)).eraseDups).any (fun m => (nodes.look m).any d.nodeFails)

/-- The launch of a graph's node made, in state Queued: its number, and the state. -/
def State.queueNode (s : State) (v g n q : Nat) (nd : Node) : Nat × State :=
  let (l, s) := s.newLaunch v q nd.packet (some (g, n)) nd.hasBin 0
  (l, s.updNode v g n (fun nd => { nd with st := .running, launch := some l }))

/-- A node that depends on a failed one completes with SKIPPED; a launch node is a launch that does, with a record and no number (R291, R301,
R363; log entry 53). -/
def State.skipNode (s : State) (v g n q : Nat) (nd : Node) : State :=
  if nd.packet.toNat % 16 = 1 then
    let (l, s) := s.queueNode v g n q nd
    s.finishLaunch v l 7
  else s.endNode v g n 7

/-- The launches of a queue that are not done. -/
def VDev.undoneOf (d : VDev) (queue : Nat) : List Nat := (d.launches.filter (fun l => l.2.queue == queue && l.2.st != .done)).map (·.1)

/-- The launch nodes of a queue's graphs that wait for their edges: launches that are Queued (R291, R297). -/
def VDev.waitingNodes (d : VDev) (queue : Nat) : List (Nat × Nat × Node) :=
  (d.graphs.filter (fun g => g.2.queue == queue && !g.2.done)).flatMap (fun g =>
    (g.2.nodes.filter (fun n => n.2.st == .waiting && n.2.packet.toNat % 16 == 1)).map (fun n => (g.1, n.1, n.2)))

/-- Those of them that no failure before them skips. -/
def VDev.queuedNodes (d : VDev) (queue : Nat) : List (Nat × Nat × Node) :=
  (d.waitingNodes queue).filter (fun e => !d.failedBefore ((d.graphs.look e.1).elim [] (·.nodes)) e.2.1)

/-- The waiting nodes of a queue's graphs that no failure before them skips made launches, to be killed as Queued launches are. -/
def State.queueNodes (s : State) (v : Nat) (d : VDev) (queue : Nat) : State :=
  (d.queuedNodes queue).foldl (fun s e => (s.queueNode v e.1 e.2.1 queue e.2.2).2) s

/-- R300: a queue's watchdog expires: parked spawns overflow, or its launches are killed, those of graph nodes that wait among them. -/
def execWatchdogExpiry (vd queue : Nat) (s : State) : Out :=
  match s.vds.look vd with
  | none => .next s
  | some d =>
    match d.queues.look queue with
    | none => .next s
    | some q =>
      if q.wdog = 0 || ((d.undoneOf queue).isEmpty && (d.queuedNodes queue).isEmpty) then .next s
      else
        match s.parkedOf vd queue with
        | [] =>
          let s := s.cpTick.queueNodes vd d queue
          let mine := (s.vds.look vd).elim [] (fun d => d.undoneOf queue)
          .next (mine.foldl (fun s l => s.endLaunch vd l 4) s)
        | ps => .next (ps.foldl (fun s p => s.overflowSpawn p.1 p.2.1 p.2.2) s.cpTick)

end Sys2Proof.Machine
end

