-- ==== Sys2Proof/Machine/Graph.lean ====
section
/-!
DEFINITION. Packets as the command processor checks them (R283), copy packets (R301), graphs and their nodes (R290, R291), and
the starts of teams from spawn bins (R249).
-/
namespace Sys2Proof.Machine

/-! ### Packets (R283, R285) -/

/-- Are the bits from lo up to hi - 1 zero? -/
def zeroFrom (p lo hi : Nat) : Bool := bitsOf p lo (hi - lo) == 0

/-- Does a packet keep its layout and limits? A KIND above 9 does not. -/
def packetOk (p : Nat) : Bool :=
  match p % 16 with
  | 0 => zeroFrom p 4 512
  | 1 => zeroFrom p 4 5 && zeroFrom p 14 16 && zeroFrom p 41 64 && zeroFrom p 480 512 && zeroFrom p 64 70
  | 2 => zeroFrom p 4 64 && zeroFrom p 320 512 && bitsOf p 192 64 % 4 == 0 && decide (bitsOf p 192 64 ≤ 2 ^ 32)
  | 3 => zeroFrom p 8 64 && zeroFrom p 256 512 && decide (bitsOf p 4 3 < 6)
  | 4 => zeroFrom p 6 64 && zeroFrom p 192 512
  | 5 => zeroFrom p 10 64 && zeroFrom p 128 512
  | 6 => zeroFrom p 4 64 && zeroFrom p 192 512
  | 7 => zeroFrom p 8 64 && zeroFrom p 192 512
  | 8 => zeroFrom p 4 64 && zeroFrom p 128 512
  | 9 => zeroFrom p 4 512
  | _ => false

/-! ### Copy packets (R283, R301) -/

/-- A copy packet or copy node done: its status word, and its node. -/
def State.finishCopy (s : State) (v q stat va code : Nat) (node : Option (Nat × Nat)) : State :=
  let s := (s.workDone v q).statusWord v stat (code + 2 ^ 8 * (va % 2 ^ 56)) nobody code
  match node with
  | some (g, n) => s.endNode v g n code
  | none => s

/-- A copy packet acted on: done at once where LEN is 0 or an address is misaligned, and in flight otherwise. -/
def State.startCopy (s : State) (v q p : Nat) (node : Option (Nat × Nat)) : State :=
  let src := bitsOf p 64 64
  let dst := bitsOf p 128 64
  let len := bitsOf p 192 64
  let stat := bitsOf p 256 64
  if len = 0 then s.finishCopy v q stat 0 0 node
  else if src % 4 ≠ 0 then s.finishCopy v q stat src 3 node
  else if dst % 4 ≠ 0 then s.finishCopy v q stat dst 3 node
  else
    let (id, s) := s.name
    { s with pcopies := s.pcopies ++ [{
        id := id, vd := v, queue := q, src := src, dst := dst, len := len, stat := stat, node := node }] }

/-- The bytes of a source line read for a copy, with their mark, or the code of the failure; another device may refuse the read, and
does where no port reaches it (R283, R385, R392). -/
def State.lineFrom (s : State) (v src n : Nat) (refused : Bool) : Except Nat (List Byte × Bool) × State :=
  match s.cpPlace v src n { r := true } with
  | .fail c => (.error c, s)
  | .here pa =>
    let s := s.found v pa n
    (.ok (s.readBytes pa n, s.linePoisoned pa n), s)
  | .peer dev =>
    let (k, s) := s.take
    (if refused || s.link v dev == .failed then .error 4 else .ok ((List.range n).map (Config.remoteByte k), false), s)

/-- Bytes of a copy written to a destination line, or the code of the failure (R283, R353, R386, R392). -/
def State.lineTo (s : State) (v dst : Nat) (bs : List Byte) (pz refused : Bool) : Except Nat State :=
  match s.cpPlace v dst bs.length { w := true } with
  | .fail c => .error c
  | .here pa =>
    if s.shut pa then .error 4
    else if pz && s.leaks v (.here pa) bs.length then .error 2 else .ok (s.storeBytes pa bs pz)
  | .peer dev => if refused || s.link v dev == .failed then .error 4 else if pz then .error 2 else .ok s

/-- n bytes of a source line moved to a destination line: the state, with the code and address of a failure; the source end comes first
(R283). `refused` says that another device refuses here, and whether it is the destination's. -/
def State.moveLine (s : State) (v src dst n : Nat) (refused : Option Bool) : Option (Nat × Nat) × State :=
  match s.lineFrom v src n (refused == some false) with
  | (.error c, s) => (some (c, src), s)
  | (.ok b, s) =>
    match s.lineTo v dst b.1 b.2 (refused == some true) with
    | .error c => (some (c, dst), s)
    | .ok s => (none, s)

/-- The bytes of a copy moved line by line from an offset: each step ends at the next line of either end, and at the offset
that another device refuses, at the end that it names. `left` counts the steps that remain. -/
def State.copyGo (v src dst len : Nat) (refusedAt : Option (Nat × Bool)) : Nat → Nat → State → Option (Nat × Nat) × State
  | 0, _, s => (none, s)
  | left + 1, o, s =>
    if len ≤ o then (none, s)
    else
      let room := min (len - o) (min (64 - (src + o) % 64) (64 - (dst + o) % 64))
      let n := match refusedAt with | some r => if o < r.1 then min room (r.1 - o) else room | none => room
      let here : Option Bool := refusedAt.bind (fun r => if r.1 = o then some r.2 else none)
      match s.moveLine v (src + o) (dst + o) n here with
      | (some e, s) => (some e, s)
      | (none, s) => State.copyGo v src dst len refusedAt left (o + n) s

/-- R301: a packet copy moves its bytes in ascending order, up to the first that faults or is refused. -/
def execCopyPacketComplete (id : Nat) (refusedAt : Option (Nat × Bool)) (s : State) : Out :=
  match s.pcopies.find? (·.id == id) with
  | none => .next s
  | some c =>
    if s.cpHeld c.vd c.src c.len { r := true } || s.cpHeld c.vd c.dst c.len { w := true } || s.statHeld c.vd c.stat ||
        s.graphHeld c.vd c.node then .next s
    else
      let s := { s with pcopies := s.pcopies.filter (·.id != id) }
      match State.copyGo c.vd c.src c.dst c.len refusedAt (c.len + 1) 0 s with
      | (some (code, va), s) => .next (s.finishCopy c.vd c.queue c.stat va code c.node)
      | (none, s) => .next (s.finishCopy c.vd c.queue c.stat 0 0 c.node)

/-! ### Graph images (R290) -/

/-- A node record of 128 bytes, or none where it breaks the layout. -/
def nodeOf (count : Nat) (bs : List Byte) : Option Node :=
  let p := leNat (bs.take 64)
  let r := leNat ((bs.drop 64).take 64)
  let bin : Bool := bitsOf r 499 1 == 1
  let succ : List Nat := (List.range 16).map (fun k => bitsOf r (16 * k) 16)
  let edges : Bool := succ.all (fun e => bitsOf e 8 6 == 0 && (e / 2 ^ 15 == 0 || decide (e % 256 < count)))
  if packetOk p && (p % 16 == 1 || (p % 16 == 2 && !bin)) && zeroFrom r 502 504 && zeroFrom r 496 499 && zeroFrom r 256 440 && edges then
    some { packet := BitVec.ofNat 512 p, succ := BitVec.ofNat 256 r, npred := bitsOf r 504 8, hasBin := bin
           rsize := 16 * (bitsOf r 500 2 + 1), spill := bitsOf r 472 24, timer := bitsOf r 440 32 }
  else none

/-- The nodes of an image, or none where it breaks the layout: each NPRED counts the edges that end at its node. -/
def graphOf (bs : List Byte) : Option (FMap Node) :=
  let count := leNat (bs.take 2)
  let nodes := (List.range count).filterMap (fun i => (nodeOf count ((bs.drop (64 + 128 * i)).take 128)).map (fun n => (i, n)))
  if nodes.length = count && nodes.all (fun e => e.2.npred == (edgesTo nodes e.1).length) then some nodes else none

/-- Is a header one that a graph may have? -/
def graphHeader (bs : List Byte) : Bool :=
  let n := leNat (bs.take 2)
  decide (1 ≤ n) && decide (n ≤ 256) && leNat (bs.drop 2) == 0

/-- The image of a graph read whole. -/
def State.readGraph (s : State) (v va : Nat) : Option (FMap Node) × State :=
  match s.cpRead v va 64 with
  | (.error _, s) => (none, s)
  | (.ok h, s) =>
    if !graphHeader h then (none, s)
    else match s.cpRead v va (64 + 128 * leNat (h.take 2)) with
      | (.error _, s) => (none, s)
      | (.ok bs, s) => (graphOf bs, s)

/-- Do the ports hold a graph packet (R392): the read of its image, or the write of its status word? -/
def State.imageHeld (s : State) (v p : Nat) : Bool :=
  let va := bitsOf p 64 64
  s.cpHeld v va 64 { r := true } || s.statHeld v (bitsOf p 128 64) ||
    (match (s.cpRead v va 64).1 with
     | .ok h => graphHeader h && s.cpHeld v va (64 + 128 * leNat (h.take 2)) { r := true }
     | .error _ => false)

/-- Do the ports hold the start of a node (R392)? -/
def State.nodeHeld (s : State) (v g n : Nat) (nd : Node) : Bool :=
  if nd.packet.toNat % 16 = 2 then s.statHeld v (bitsOf nd.packet.toNat 256 64) || s.graphHeld v (some (g, n))
  else s.dispatchHeld v nd.packet (some (g, n))

/-- A graph packet acted on (R290): its bins' areas and pools are allocated, or it completes with SHAPE. -/
def State.startGraph (s : State) (v q p : Nat) : State :=
  match s.vds.look v with
  | none => s
  | some d =>
    let (img, s) := s.readGraph v (bitsOf p 64 64)
    let put (nodes : FMap Node) (s : State) : State := s.updVd v (fun d => { d with
      nextG := d.nextG + 1, graphs := d.graphs.put d.nextG { queue := q, stat := bitsOf p 128 64, nodes := nodes } })
    match img with
    | none => (put [] s).finishGraph v d.nextG 6
    | some nodes =>
      let need := (nodes.map (fun n => if n.2.hasBin then n.2.rsize * (n.2.spill + (d.cores.length + 1) * n.2.fill) else 0)).sum
      if !d.quotaHolds need then (put [] s).finishGraph v d.nextG 6
      else
        let (k, s) := s.take
        put (nodes.map (fun n => (n.1, { n.2 with pool := 64 * (Config.placement (256 * k + n.1) % 2 ^ 40) }))) s

/-! ### Nodes (R291) -/

/-- Is an edge satisfied (R291)? -/
def VDev.satisfied (d : VDev) (nodes : FMap Node) (e : Nat × Bool) : Bool :=
  match nodes.look e.1 with
  | none => false
  | some n =>
    n.code? == some 0 || (e.2 && (match n.launch.bind d.launches.look with | some l => l.trigged | none => false))

/-- A node's launch made and dispatched. -/
def State.startNode (s : State) (v g n q : Nat) (nd : Node) : State :=
  let (l, s) := s.queueNode v g n q nd
  s.dispatch v l

/-- R291: a node whose edges are satisfied is dispatched; one that depends on a failed node is skipped. A node with a bin may have been
dispatched by its first start of a team (R249; log entry 51). -/
def execGraphNodeDispatch (vd graph node : Nat) (s : State) : Out :=
  match s.vds.look vd with
  | none => .next s
  | some d =>
    match d.graphs.look graph with
    | none => .next s
    | some gr =>
      match gr.nodes.look node with
      | none => .next s
      | some nd =>
        let edges := edgesTo gr.nodes node
        if gr.done || nd.st != .waiting then .next s
        else if d.failedBefore gr.nodes node then
          (if s.graphHeld vd (some (graph, node)) then .next s else .next (s.skipNode vd graph node gr.queue nd))
        else if !d.dispatches || s.nodeHeld vd graph node nd then .next s
        else if edges.all (d.satisfied gr.nodes) then
          if nd.packet.toNat % 16 = 2 then
            .next ((s.updNode vd graph node (fun nd => { nd with st := .running })).startCopy vd gr.queue nd.packet.toNat
              (some (graph, node)))
          else .next (s.startNode vd graph node gr.queue nd)
        else .next s

/-! ### Bins (R249) -/

/-- R249: the coalescing timer of a bin that holds records expires. -/
def execCoalescingTimerExpiry (vd graph node : Nat) (s : State) : Out :=
  match s.node? vd graph node with
  | none => .next s
  | some nd =>
    if nd.timing && !nd.bin.isEmpty then .next (s.cpTick.updNode vd graph node (fun nd => { nd with timing := false, due := true }))
    else .next s

/-- The lowest free record array of a node. -/
def Node.freeArray (n : Node) (cores : Nat) : Option Nat := (List.range (cores + 1)).find? (fun a => !n.arrays.contains a)

/-- Does a bin's start condition hold? -/
def Node.starts? (n : Node) : Bool := decide (n.fill ≤ n.bin.length) || (n.due && !n.bin.isEmpty)

/-- Bytes put at virtual addresses of a virtual device wherever its tables let them be written, line by line; a line that would carry
poison out of the virtual device writes nothing (R347, R386). -/
def State.putMapped (s : State) (v va : Nat) (bs : List Byte) (pz : Nat → Bool) : State :=
  (lineParts va bs.length).foldl (fun s p =>
    let bad : Bool := (List.range p.2).any (fun i => pz (p.1 - va + i))
    match s.cpPlace v p.1 p.2 { w := true } with
    | .here pa => if bad && s.leaks v (.here pa) p.2 then s else s.storeBytes pa ((bs.drop (p.1 - va)).take p.2) bad
    | _ => s) s

/-- A bin after a start of n records: the spill area refills the buffer. -/
def Node.after (nd : Node) (n a : Nat) : Node :=
  let left := nd.bin.drop n ++ nd.excess
  { nd with
    bin := left.take (2 * nd.fill), excess := left.drop (2 * nd.fill), timing := !left.isEmpty && nd.timer != 0, due := false
    starts := nd.starts + 1, arrays := nd.arrays ++ [a] }

/-- R249: a bin starts a team: its records go to a free array of the pool, once no port holds them (R392). A node that is to be skipped starts
none (R291). -/
def execBinTeamStart (vd graph node : Nat) (s : State) : Out :=
  match s.vds.look vd with
  | none => .next s
  | some d =>
    match d.graphs.look graph with
    | none => .next s
    | some gr =>
      match gr.nodes.look node with
      | none => .next s
      | some nd =>
        if !nd.hasBin || !nd.starts? || gr.done then .next s
        else match nd.launch with
          | none =>
            if nd.st == .waiting && !d.failedBefore gr.nodes node && d.dispatches && !s.nodeHeld vd graph node nd then
              .next (s.startNode vd graph node gr.queue nd)
            else .next s
          | some l =>
            match nd.freeArray d.cores.length, d.launches.look l with
            | some a, some x =>
              let rs := nd.bin.take nd.fill
              let bytes := (rs.map (·.bytes)).flatten
              let to_ := nd.pool + a * nd.fill * nd.rsize
              if x.st != .running || x.code.isSome || s.cpHeld vd to_ bytes.length { w := true } then .next s
              else
                let pz := (rs.map (·.pz)).flatten
                let s := s.putMapped vd to_ bytes (fun i => (pz[i / 8]?).getD false)
                .next ((s.updNode vd graph node (fun nd => nd.after rs.length a)).updLaunch vd l (fun x =>
                  { x with count := x.count + 1, recs := x.recs.put x.count (a, rs.length) }))
            | _, _ => .next s

end Sys2Proof.Machine
end

