-- ==== Sys2Proof/Machine/Queue.lean ====
section
/-!
DEFINITION. Queues on command-processor threads (R280 to R282, R284) and the packets that they read (R283).
-/
namespace Sys2Proof.Machine

/-! ### Descriptors (R281, R284) -/

/-- HEAD and STATUS of a queue written to its descriptor: the command processor's own values, and no wake writes. -/
def State.writeBack (s : State) (v q : Nat) : State :=
  match s.queue? v q with
  | none => s
  | some x => (s.cpQuiet v (x.desc + 16) (leBytes 8 x.head)).cpQuiet v (x.desc + 49) (leBytes 1 x.status)

/-- TAIL, as a sys acquire reads it (R281). -/
def State.tail (s : State) (v : Nat) (x : Queue) : Option Nat :=
  match (s.cpRead v (x.desc + 24) 8).1 with
  | .ok bs => some (leNat bs)
  | .error _ => none

/-- Is TAIL lost to poison (R7; log entry 47)? -/
def State.tailLost (s : State) (v : Nat) (x : Queue) : Bool :=
  match (s.cpRead v (x.desc + 24) 8).1 with
  | .error c => c == 4
  | .ok _ => false

/-- A thread changed. -/
def State.updThread (s : State) (t : Nat) (f : Thread → Thread) : State :=
  { s with threads := s.threads.put t (f (s.threads.getD t {})) }

/-- A queue mapped to a thread (R282); the first of a waking virtual device has been served. -/
def State.mapTo (s : State) (v q t : Nat) : State :=
  let (k, s) := s.name
  let s := s.updVd v (fun d => { d with served := true })
  ((s.updThread t (fun x => { x with queue := some (v, q) })).updQueue v q (fun x =>
    { x with thread := some t, mapped := k, blocked := .no })).writeBack v q

/-- A queue unmapped: HEAD is written, and nothing is lost (R282). -/
def State.unmap (s : State) (v q : Nat) : State :=
  match (s.queue? v q).bind (·.thread) with
  | none => s
  | some t =>
    match s.queue? v q with
    | none => s
    | some x =>
      let s := s.cpQuiet v (x.desc + 16) (leBytes 8 x.head)
      (s.updThread t (fun x => { x with queue := none })).updQueue v q (fun x => { x with thread := none, blocked := .no })

/-- A queue halted with a STATUS; HEAD stays (R281, R283). -/
def State.halt (s : State) (v q status : Nat) : State :=
  let (k, s) := s.name
  (s.updQueue v q (fun x => { x with status := status, since := k })).writeBack v q

/-- A thread blocked in hardware (R280). -/
def State.block (s : State) (v q : Nat) (b : Blocked) : State :=
  let (k, s) := s.name
  s.updQueue v q (fun x => { x with blocked := b, since := k })

/-- A packet consumed. -/
def State.consume (s : State) (v q : Nat) : State := s.updQueue v q (fun x => { x with head := (x.head + 1) % 2 ^ 64 })

/-! ### Mapping (R282) -/

/-- The mapped queues: thread, virtual device, queue. -/
def State.mappedQueues (s : State) : List (Nat × Nat × Nat × Queue) :=
  s.threads.filterMap (fun t => t.2.queue.bind (fun r => (s.queue? r.1 r.2).map (fun x => (t.1, r.1, r.2, x))))

/-- The queue with the least of a measure. -/
def leastBy (f : Queue → Nat) : List (Nat × Nat × Nat × Queue) → Option (Nat × Nat × Nat × Queue)
  | [] => none
  | x :: l => some (l.foldl (fun b y => if f y.2.2.2 < f b.2.2.2 then y else b) x)

/-- Is a thread blocked on a wait-value packet? -/
def Blocked.onValue : Blocked → Bool
  | .value _ => true
  | _ => false

/-- The queue to unmap for another, of those with no work in flight: one halted (R284); one that is empty, the one idle longest; one
blocked on a wait-value, the one blocked longest. For the first queue of a waking virtual device, else another's that has been mapped
longest. -/
def State.toUnmap (s : State) (v : Nat) (d : VDev) : Option (Nat × Nat × Nat × Queue) :=
  let all := s.mappedQueues
  let idle (e : Nat × Nat × Nat × Queue) : Bool := !s.work e.2.1 e.2.2.1
  let first : Bool := !d.served
  ((leastBy (·.since) (all.filter (fun e => e.2.2.2.status != 0 && idle e))).orElse (fun _ =>
    (leastBy (·.since) (all.filter (fun e => e.2.2.2.blocked == .empty && idle e))).orElse (fun _ =>
      (leastBy (·.since) (all.filter (fun e => e.2.2.2.blocked.onValue && idle e))).orElse (fun _ =>
        if first then leastBy (·.mapped) (all.filter (fun e => e.2.1 != v)) else none))))

/-- The lowest thread that has firmware and maps no queue (R391). -/
def State.freeThread (s : State) : Option Nat := (s.threads.find? (fun t => t.2.fw.isSome && t.2.queue.isNone)).map (·.1)

/-- R282: an unmapped queue whose TAIL differs from its HEAD is mapped. -/
def execQueueMap (vd queue : Nat) (s : State) : Out :=
  match s.vds.look vd with
  | none => .next s
  | some d =>
    match d.queues.look queue with
    | none => .next s
    | some x =>
      if x.thread.isSome || x.status != 0 || !d.up || s.cpHeld vd (x.desc + 24) 8 { r := true } then
        .next s
      else if s.tailLost vd x then .next ((s.saw vd (x.desc + 24) 8).halt vd queue 1)
      else if s.tail vd x == some x.head || (s.tail vd x).isNone then .next s
      else match s.freeThread with
        | some t => .next (s.mapTo vd queue t)
        | none =>
          match s.toUnmap vd d with
          | some (t, v', q', _) => .next ((s.unmap v' q').mapTo vd queue t)
          | none => .next s

/-! ### Reading packets (R283) -/

/-- May the thread of a queue read its next packet? The queue runs, is mapped and not blocked, and every launch packet before
it has been dispatched. -/
def VDev.reads (d : VDev) (q : Nat) (x : Queue) : Bool :=
  x.thread.isSome && x.status == 0 && x.blocked == .no && d.up &&
    !d.launches.any (fun l => l.2.queue == q && l.2.st == .queued)

/-- The address of the packet at HEAD. -/
def Queue.packetVa (x : Queue) : Nat := x.base + 64 * (x.head % 2 ^ x.log2n)

/-- The packet at HEAD, read through the page tables of the queue's virtual device. -/
def State.packetAt (s : State) (v : Nat) (x : Queue) : Except Nat Nat :=
  match (s.cpRead v x.packetVa 64).1 with
  | .ok bs => .ok (leNat bs)
  | .error e => .error e

/-- The state after TAIL and the packet at HEAD have been read. -/
def State.sawRing (s : State) (v : Nat) (x : Queue) : State := (s.saw v (x.desc + 24) 8).saw v x.packetVa 64

/-- Do the ports hold the reads of TAIL and of the packet at HEAD (R392)? -/
def State.ringHeld (s : State) (v : Nat) (x : Queue) : Bool :=
  s.cpHeld v (x.desc + 24) 8 { r := true } || s.cpHeld v x.packetVa 64 { r := true }

/-- A packet of some kinds read: an empty queue blocks; an overrun, a packet that breaks its layout or a line lost to poison halts; and
any other packet of the kinds is acted on. -/
def State.packet (s : State) (v q : Nat) (kinds : Nat → Bool) (body : Queue → Nat → State → State) : Out :=
  match s.vds.look v with
  | none => .next s
  | some d =>
    match d.queues.look q with
    | none => .next s
    | some x =>
      if !d.reads q x || s.ringHeld v x then .next s
      else match s.tail v x with
        | none => if kinds 15 && s.tailLost v x then .next ((s.saw v (x.desc + 24) 8).halt v q 1) else .next s
        | some t =>
          if t = x.head then .next ((s.saw v (x.desc + 24) 8).block v q .empty)
          else if 2 ^ x.log2n < (t + 2 ^ 64 - x.head) % 2 ^ 64 then .next ((s.saw v (x.desc + 24) 8).halt v q 2)
          else match (s.saw v (x.desc + 24) 8).packetAt v x with
            | .error _ => if kinds 15 then .next ((s.sawRing v x).halt v q 1) else .next s
            | .ok p =>
              if !kinds (p % 16) then .next s
              else if packetOk p then .next (body x p (s.sawRing v x)) else .next ((s.sawRing v x).halt v q 1)

/-- R283: consumed with no effect. -/
def execNopPacket (vd queue : Nat) (s : State) : Out := s.packet vd queue (· == 0) (fun _ _ s => s.consume vd queue)

/-- R285: a launch queued for dispatch, with the deadline that waits for it. -/
def execLaunchPacket (vd queue : Nat) (s : State) : Out :=
  s.packet vd queue (· == 1) (fun x p s =>
    ((s.newLaunch vd queue (BitVec.ofNat 512 p) none false x.dline).2.updQueue vd queue (fun x => { x with dline := 0 })).consume
      vd queue)

/-- R283: a copy started. -/
def execCopyPacket (vd queue : Nat) (s : State) : Out :=
  s.packet vd queue (· == 2) (fun _ p s =>
    if s.statHeld vd (bitsOf p 256 64) then s else (s.startCopy vd queue p none).consume vd queue)

/-- Does the condition of a wait-value packet hold (R283)? -/
def condHolds (cond w x value : Nat) : Bool :=
  let ge : Bool := decide ((x + 2 ^ w - value % 2 ^ w) % 2 ^ w < 2 ^ (w - 1))
  match cond with
  | 0 => x == value
  | 1 => x != value
  | 2 => ge
  | 3 => !ge
  | 4 => decide (value ≤ x)
  | _ => decide (x < value)

/-- The test of a wait-value packet: none where its read faults or is misaligned. -/
def State.waitTest (s : State) (v p : Nat) : Option Bool :=
  let n := if bitsOf p 7 1 = 1 then 8 else 4
  let addr := bitsOf p 64 64
  if addr % n ≠ 0 then none
  else match (s.cpRead v addr n).1 with
    | .error _ => none
    | .ok bs => some (condHolds (bitsOf p 4 3) (8 * n) (leNat bs &&& bitsOf p 192 (8 * n)) (bitsOf p 128 (8 * n)))

/-- Do the ports hold the read of a wait-value packet (R392)? -/
def State.waitHeld (s : State) (v p : Nat) : Bool := s.cpHeld v (bitsOf p 64 64) (if bitsOf p 7 1 = 1 then 8 else 4) { r := true }

/-- The state after the word of a wait-value packet has been read, where it is aligned. -/
def State.sawWait (s : State) (v p : Nat) : State :=
  let n := if bitsOf p 7 1 = 1 then 8 else 4
  if bitsOf p 64 64 % n ≠ 0 then s else s.saw v (bitsOf p 64 64) n

/-- R283: a masked word tested; the thread blocks until the condition holds. -/
def execWaitValuePacket (vd queue : Nat) (s : State) : Out :=
  s.packet vd queue (· == 3) (fun _ p s =>
    if s.waitHeld vd p then s
    else match s.waitTest vd p with
    | none => (s.sawWait vd p).halt vd queue 1
    | some true => (s.sawWait vd p).consume vd queue
    | some false => (s.sawWait vd p).block vd queue (.value (bitsOf p 64 64)))

/-- A signal's write (R283, R302). -/
def State.signal (s : State) (v p : Nat) : State :=
  let n := if bitsOf p 4 1 = 1 then 8 else 4
  let addr := bitsOf p 64 64
  let value := bitsOf p 128 (8 * n)
  let old : Nat := match s.cpPlace v addr n { w := true } with | .here pa => s.readNat pa n | _ => 0
  let new := if bitsOf p 5 1 = 1 then (old + value) % 2 ^ (8 * n) else value
  let done : Option State := if addr % n ≠ 0 then none else s.cpWrite v addr (leBytes n new)
  match done with
  | some s => s
  | none => s.pushErr v (errEntry 0x0B 0xFF 0 1 nobody nobody 0 addr)

/-- R283: a value written or added once earlier work has completed. -/
def execSignalPacket (vd queue : Nat) (s : State) : Out :=
  s.packet vd queue (· == 4) (fun _ p s =>
    if s.work vd queue then s.block vd queue .work
    else if s.cpHeld vd (bitsOf p 64 64) (if bitsOf p 4 1 = 1 then 8 else 4) { w := true } then s
    else (s.signal vd p).consume vd queue)

/-- R283: a shape variable of the queue's context set or added to. -/
def execSetShapePacket (vd queue : Nat) (s : State) : Out :=
  s.packet vd queue (· == 5) (fun x p s =>
    let key := shapeKey x.ctx (bitsOf p 4 5)
    let value : DWord := BitVec.ofNat 64 (bitsOf p 64 64)
    (s.updVd vd (fun d => { d with
      vars := if bitsOf p 9 1 = 1 then d.vars.put key { d.vars.getD key {} with val := (d.vars.getD key {}).val + value }
        else d.vars.put key { val := value } })).consume vd queue)

/-- R290: a graph read. -/
def execGraphPacket (vd queue : Nat) (s : State) : Out :=
  s.packet vd queue (· == 6) (fun _ p s => if s.imageHeld vd p then s else (s.startGraph vd queue p).consume vd queue)

/-- R283: a warm-start slot bound. -/
def execBindWarmPacket (vd queue : Nat) (s : State) : Out :=
  s.packet vd queue (· == 7) (fun _ p s =>
    (s.updQueue vd queue (fun x => { x with
      warm := x.warm.put (bitsOf p 4 4) { bufA := bitsOf p 64 64, bufB := bitsOf p 128 64, phase := false } })).consume vd queue)

/-- R283: the deadline of the next launch. -/
def execDeadlinePacket (vd queue : Nat) (s : State) : Out :=
  s.packet vd queue (· == 8) (fun _ p s => (s.updQueue vd queue (fun x => { x with dline := bitsOf p 64 64 })).consume vd queue)

/-- R283: the queue held until earlier work has completed. -/
def execBarrierPacket (vd queue : Nat) (s : State) : Out :=
  s.packet vd queue (· == 9) (fun _ _ s => if s.work vd queue then s.block vd queue .work else s.consume vd queue)

/-- R283: a packet of KIND 0xA to 0xF, or a read of the ring that faults, halts the queue. -/
def execBadPacket (vd queue : Nat) (s : State) : Out :=
  s.packet vd queue (fun k => decide (10 ≤ k)) (fun _ _ s => s.halt vd queue 1)

/-! ### Re-tests (R280) -/

/-- Would the thread of a blocked queue go on? -/
def State.goesOn (s : State) (v q : Nat) (x : Queue) : Bool :=
  match x.blocked with
  | .no => false
  | .empty => !s.cpHeld v (x.desc + 24) 8 { r := true } && (s.tailLost v x || (match s.tail v x with | some t => t != x.head | none => false))
  | .work => !s.work v q
  | .value _ =>
    !s.ringHeld v x && (match s.packetAt v x with
      | .ok p => !s.waitHeld v p && !(s.waitTest v p == some false)
      | .error _ => true)

/-- The state after the word that a blocked thread watches has been read. -/
def State.sawWatched (s : State) (v : Nat) (x : Queue) : State :=
  match x.blocked with
  | .no | .work => s
  | .empty => s.saw v (x.desc + 24) 8
  | .value _ => match s.packetAt v x with | .ok p => s.sawWait v p | .error _ => s

/-- R280: a blocked thread is tested again, and reads on where its condition now holds. -/
def execWatchedWordRetest (thread : Nat) (s : State) : Out :=
  match (s.threads.getD thread {}).queue with
  | none => .next s
  | some (v, q) =>
    match s.queue? v q with
    | none => .next s
    | some x =>
      if s.goesOn v q x then .next ((s.sawWatched v x).updQueue v q (fun x => { x with blocked := .no })) else .next (s.sawWatched v x)

end Sys2Proof.Machine
end

