-- ==== Sys2Proof/Machine/Sched.lean ====
section
/-!
DEFINITION. Placement and sharing of cores (R235 to R237, R292, R293), pre-emption (R294 to R296) and the switch back in.
-/
namespace Sys2Proof.Machine

/-! ### Pending and saved teams -/

/-- The teams that are placed together with a team (R235). -/
def Launch.unit (l : Launch) (i : Nat) : List Nat :=
  if l.clustered then (List.range l.ctas).map (fun k => i / l.ctas * l.ctas + k) else [i]

/-- Is a team pending? -/
def Launch.pending (l : Launch) (i : Nat) : Bool := l.again.contains i || (decide (l.next ≤ i) && decide (i < l.count))

/-- Is a team saved? -/
def Launch.savedTeam (l : Launch) (i : Nat) : Option SavedTeam :=
  match l.teams.look i with
  | some (.saved v) => some v
  | _ => none

/-- The first pending team: the teams that a discard returned stand first (R295), then the lowest index (DESIGN CHOICE, log entry 163). -/
def Launch.first (l : Launch) : Option Nat := l.again.head?.orElse (fun _ => if l.next < l.count then some l.next else none)

/-- Is a team one that has ended or been killed? -/
def Launch.over (l : Launch) (i : Nat) : Bool := (l.teams.look i).any TeamSt.settled

/-- The members of a unit that take a core when it is placed: those that are not over. -/
def Launch.takes (l : Launch) (i : Nat) : List Nat := (l.unit i).filter (fun j => !l.over j)

/-- The teams of a running launch that may be placed next, one for each unit: the first pending, and the saved. -/
def Launch.candidates (l : Launch) : List Nat :=
  if l.st != .running then []
  else
    (match l.first with
      | some i => if (l.takes i).all l.pending then [(l.unit i).headD i] else []
      | none => []) ++
    (l.teams.filter (fun e => (l.unit e.1).head? == some e.1 && !(l.takes e.1).isEmpty &&
      (l.takes e.1).all (fun i => (l.savedTeam i).isSome))).map (·.1)

/-! ### Room (R138, R292) -/

/-- Does a core hold no ordinary team, and stay in service? -/
def Core.vacant (c : Core) : Bool := c.team.isNone && !c.retired

/-- Has a core room for a team beside the responder beams that it holds? -/
def Core.holds (c : Core) (d : Decl) (beams : Nat) : Bool :=
  c.vacant && c.spadFits d && (List.range 4).all (fun q =>
    let n := (beams + 3 - q) / 4
    let free := ((List.range 16).filter (fun i => (c.beams.look (16 * q + i)).isNone)).length
    decide (n ≤ free) && decide (c.vregsIn q + n * d.vregs ≤ 1024) && decide (c.mslotsIn q + n * d.mcap * d.mcount ≤ 1024))

/-- Does a cluster launch hold the cluster of a core: some team of its cluster is still on a core of it, and the positions
without a team stay empty until the cluster is released (R235, R251; log entry 107)? -/
def State.clusterHeld (s : State) (core : Nat) : Bool :=
  (List.range 16).any (fun i => (s.core (core / 16 * 16 + i)).team.any (fun t => t.position.isSome))

/-- Does a responder beam that waits on a core fit its room? It is placed ahead of every pending team (R309). DESIGN CHOICE (log entry 179): one
that finds no room yet holds back neither a team nor a later responder beam that fit. -/
def State.respFirst (s : State) (core : Nat) : Bool :=
  (s.respWaiting core).isSome

/-- Is a core free for the unit of a team of a launch (R292)? For a cluster launch its whole cluster, of which it is the first core, is
free, and the cores whose positions take a team have room for it. -/
def State.freeFor (s : State) (d : VDev) (l : Launch) (k : Decl) (i core : Nat) : Bool :=
  let free (n : Nat) : Bool := (s.coresOf d).contains n && (s.core n).vacant && !s.clusterHeld n
  let room (n : Nat) : Bool := (s.core n).holds k l.beams && !s.respFirst n
  if l.clustered then
    core % 16 == 0 && (List.range 16).all (fun p => free (core + p)) && (l.takes i).all (fun j => room (core + j % l.ctas))
  else free core && room core

/-- The declarations of a launch's kernel. -/
def VDev.declOf (d : VDev) (l : Launch) : Decl := (d.kernels.look l.handle).elim {} (·.decl)

/-- The address of save area number i of a launch (R377). -/
def Launch.areaAt (l : Launch) (k : Decl) (i : Nat) : Option Nat := l.areas.map (fun b => b + i * k.areaSize l.beams)

/-- The save areas of a launch in use by placed and saved teams. -/
def State.areasUsed (s : State) (v n : Nat) (l : Launch) : List Nat :=
  (s.cores.filterMap (fun c => c.2.team.bind (fun t => if t.vd = v && t.launch == n then t.area else none))) ++
    l.teams.filterMap (fun e => match e.2 with | .saved x => x.team.area | _ => none)

/-- The save areas of a launch that are free, of one for each core that the virtual device owns. -/
def State.areasFree (s : State) (v n : Nat) (d : VDev) (l : Launch) : List Nat :=
  let k := d.declOf l
  ((List.range d.cores.length).filterMap (l.areaAt k)).filter (fun a => !(s.areasUsed v n l).contains a)

/-- Has a launch a save area for each team of a unit, where its teams need one (R377)? -/
def State.areasFor (s : State) (v n : Nat) (d : VDev) (l : Launch) (i : Nat) : Bool :=
  l.areas.isNone || (l.takes i).all (fun j => (l.savedTeam j).isSome) || decide ((l.takes i).length ≤ (s.areasFree v n d l).length)

/-- Is a core free now for a team of a launch? -/
def State.findsCore (s : State) (d : VDev) (l : Launch) (i : Nat) : Bool := d.cores.any (s.freeFor d l (d.declOf l) i)

/-- Has a node a team that waits to be placed? -/
def VDev.nodeWaits (d : VDev) (m : Node) : Bool := (m.launch.bind d.launches.look).any (fun x => !x.candidates.isEmpty)

/-- Does a bin that a launch's node feeds hold a full team that can start, or wait to place one (R249)? The node itself, where it spawns
into its own bin, holds nothing back; and of nodes in a cycle that all wait to place a team none holds another back by that (log entry
142). -/
def VDev.binFirst (d : VDev) (l : Launch) : Bool :=
  match l.node with
  | none => false
  | some (g, n) =>
    match d.graphs.look g with
    | none => false
    | some gr =>
      match gr.nodes.look n with
      | none => false
      | some nd =>
        let waiting := gr.nodes.filter (fun e => e.1 == n || d.nodeWaits e.2)
        let ring := sourcesOf waiting waiting.length [n]
        (List.range 16).any (fun k =>
          match (nd.succAt k).bind (fun e => if e.2 = n then none else (gr.nodes.look e.2).map (fun m => (e.2, m))) with
          | some (i, m) =>
            m.hasBin && m.code?.isNone &&
              ((decide (m.fill ≤ m.bin.length) && (m.freeArray d.cores.length).isSome) || (d.nodeWaits m && !ring.contains i))
          | none => false)

/-- The placeable teams of a virtual device, whether or not a core is free for them (R294): queue, launch, first team of the unit. -/
def State.placeables (s : State) (v : Nat) (d : VDev) : List (Nat × Nat × Nat) :=
  d.launches.flatMap (fun e => if d.binFirst e.2 then [] else
    (e.2.candidates.filter (s.areasFor v e.1 d e.2)).map (fun i => (e.2.queue, e.1, i)))

/-- The placeable teams of a virtual device that wait for a core. -/
def State.starved (s : State) (v : Nat) (d : VDev) : List (Nat × Nat × Nat) :=
  (s.placeables v d).filter (fun e => match d.launches.look e.2.1 with | some l => !s.findsCore d l e.2.2 | none => false)

/-! ### Turns (R292) -/

/-- The priority level of a queue. -/
def VDev.prio (d : VDev) (q : Nat) : Nat := (d.queues.look q).elim 0 (·.prio)

/-- The turn order: the queues that have a placeable team, those that had one before in their places, then the others by number (R292).
DESIGN CHOICE (log entry 155): where a newcomer enters, and that a place lost is given up at the next placement. -/
def VDev.order (d : VDev) (placeable : List (Nat × Nat × Nat)) : List Nat :=
  let has (q : Nat) : Bool := placeable.any (fun e => e.1 == q)
  d.turn.filter has ++ ((d.queues.map (·.1)).filter (fun q => has q && !d.turn.contains q))

/-- What a turn says of a queue that asks to place: it may, the head of the order was sent to the back with a new quantum, or
it waits. -/
inductive Turn where
  | go (order : List Nat)
  | rotate (order : List Nat) (q : Nat)
  | wait

/-- D of a queue. -/
def VDev.deficit (d : VDev) (q : Nat) : Int := (d.queues.look q).elim 0 (·.deficit)

/-- The head of each level's turn order, highest level first: of its queues that have a placeable team the first (R292). -/
def VDev.heads (d : VDev) (order : List Nat) : List Nat := (List.range 4).filterMap (fun p => order.find? (fun q => d.prio q == p))

/-- The turn of a queue. The head of a level places while its D is above 0, and goes to the back when it is not; while its teams only lack a
free core, the others of its level wait with it, and a lower level may place (R292, R294; log entry 108). -/
def VDev.turnOf (d : VDev) (placeable ready : List (Nat × Nat × Nat)) (q : Nat) : Turn :=
  let all := d.order placeable
  match (d.heads all).find? (fun h => decide (d.deficit h ≤ 0) || ready.any (fun e => e.1 == h)) with
  | none => .wait
  | some h => if d.deficit h ≤ 0 then .rotate (all.filter (· != h) ++ [h]) h else if h = q then .go all else .wait

/-! ### Room that pre-emption can make (R294) -/

/-- The queue of the team on a core, and its level. -/
def State.levelAt (s : State) (core : Nat) : Option (Nat × Nat × Nat) :=
  (s.core core).team.bind (fun t => (s.launch? t.vd t.launch).bind (fun l =>
    (s.queue? t.vd l.queue).map (fun q => (t.vd, l.queue, q.prio))))

/-- A core without its ordinary team, and without what teams that ended have kept. -/
def Core.cleared (c : Core) : Core :=
  { c with team := none, beams := c.beams.filter (fun e => e.2.resp.isSome), kept := c.kept.filter (fun k => k.1.isSome) }

/-- Is the team of a core leaving it: its save has started, or its discard waits for copies (R295, R296)? -/
def State.leaving (s : State) (core : Nat) : Bool :=
  ((s.core core).team.isSome && !s.residentAt core) || (s.core core).kept.any (fun k => k.1.isNone)

/-- Could a launch of a level win a core: it holds no ordinary team, one that is leaving, or one of a lower level, and has room
without it, where its position takes a team? -/
def State.winnable (s : State) (d : VDev) (l : Launch) (prio core : Nat) : Bool :=
  (s.coresOf d).contains core && (s.core core).cleared.vacant &&
    ((l.clustered && decide (l.ctas ≤ core % 16)) || (s.core core).cleared.holds (d.declOf l) l.beams) &&
    ((s.core core).team.isNone || s.leaving core || (match s.levelAt core with | some (_, _, p) => decide (prio < p) | none => false))

/-- The cores that a launch needs together with a core: its whole cluster, or the core alone. -/
def Launch.needs (l : Launch) (core : Nat) : List Nat :=
  if l.clustered then (List.range 16).map (fun i => core / 16 * 16 + i) else [core]

/-- Does a waiting team of a level above `prio` wait for a core that pre-emption can win for it? Such a core is kept for it: the
highest level is served first (R292; log entry 108). -/
def State.awaited (s : State) (v : Nat) (d : VDev) (prio core : Nat) : Bool :=
  (s.starved v d).any (fun e => decide (d.prio e.1 < prio) && (match d.launches.look e.2.1 with
    | some l => (l.needs core).all (s.winnable d l (d.prio e.1))
    | none => false))

/-- Does a cluster launch dispatched earlier in a launch's queue wait to place a cluster's teams? Cores of a cluster free one by one, so later
launches of the queue are placed after it, but for those of bins, whose teams may be what it waits for (R5, R249). DEDUCED (log entry
181). -/
def State.gathering (s : State) (v : Nat) (d : VDev) (l : Launch) : Bool :=
  !l.bin && (s.placeables v d).any (fun e => e.1 == l.queue && (match d.launches.look e.2.1 with
    | some m => m.clustered && decide (m.number.getD 0 < l.number.getD 0)
    | none => false))

/-- May a core be given to a team of a launch: it is free for it, and awaited neither by a higher level nor by an earlier cluster launch of
its queue (R5, R292)? -/
def State.gives (s : State) (v : Nat) (d : VDev) (l : Launch) (i core : Nat) : Bool :=
  s.freeFor d l (d.declOf l) i core && !(l.needs core).any (s.awaited v d (d.prio l.queue)) && !s.gathering v d l

/-- The placeable teams of a virtual device that can be placed now. -/
def State.ready (s : State) (v : Nat) (d : VDev) : List (Nat × Nat × Nat) :=
  (s.placeables v d).filter (fun e => match d.launches.look e.2.1 with | some l => d.cores.any (s.gives v d l e.2.2) | none => false)

/-- Is a team of some level on a core a victim for a waiting team of a higher level: it would win the core, and no core that it
could use is being left already (R294)? -/
def State.victim (s : State) (v : Nat) (d : VDev) (prio core : Nat) : Bool :=
  (s.starved v d).any (fun e => decide (d.prio e.1 < prio) && (match d.launches.look e.2.1 with
    | some l => (l.needs core).all (s.winnable d l (d.prio e.1)) &&
        (l.clustered || !(s.coresOf d).any (fun n => s.leaving n && s.winnable d l (d.prio e.1) n))
    | none => false))

/-! ### Operating points (R26, R293) -/

/-- The hint of a launch. -/
def Launch.hint (l : Launch) : Nat := bitsOf l.packet.toNat 6 3

/-- The hints of the launches that have a team on a die. -/
def State.hintsOn (s : State) (die : Nat) : List Nat :=
  s.cores.filterMap (fun c => if dieOf c.1 = die then c.2.team.bind (fun t => (s.launch? t.vd t.launch).map Launch.hint) else none)

/-- The operating point of a die: the lowest hint of its launches, no faster than its limit, or with no team on it the point that its last
placement set (DESIGN CHOICE, log entry 92). -/
def State.pointOf (s : State) (die : Nat) : Nat :=
  let g := s.gov.getD die {}
  match (s.hintsOn die).min? with
  | some h => max h g.limit
  | none => max g.point g.limit

/-- A die's point brought to that of a launch of which team i is placed, with its cluster's others; the launch's first on the die, where it
raises the frequency, is held until the regulator is stable, and the cluster with it (DEDUCED, log entry 183), but for the first after a wake
(R293, R339). -/
def State.govern (s : State) (v n i : Nat) (l : Launch) (cores : List Nat) (die : Nat) : State :=
  let old := s.pointOf die
  let want := min old (max l.hint (s.gov.getD die {}).limit)
  let want := if (s.hintsOn die).isEmpty then max l.hint (s.gov.getD die {}).limit else want
  let first : Bool := !l.dies.contains die
  let woken : Bool := match s.vds.look v with | some d => d.woke.contains die | none => false
  let hold : Bool := decide (want < old) && first && !woken
  let s := s.updVd v (fun d => { d with
    woke := d.woke.filter (· != die)
    wokeBy := if d.power == .waking || !d.counting.isEmpty then d.wokeBy.orElse (fun _ => some { die := die, launch := n, team := i }) else d.wokeBy })
  let s := s.updLaunch v n (fun l => { l with dies := if first then l.dies ++ [die] else l.dies })
  { s with gov := s.gov.put die { (s.gov.getD die {}) with
      point := want, stable := (s.gov.getD die {}).stable && !decide (want < old)
      held := (s.gov.getD die {}).held ++ (if hold then cores.map (fun c => (c, (s.core c).teamGen + 1)) else []) } }

/-- R293: a die's regulator reports stable, and held teams are released. -/
def execRegulatorStable (die : Nat) (s : State) : Out :=
  match s.gov.look die with
  | some g => .next ({ s with gov := s.gov.put die { g with stable := true, held := [] } }.govTick die)
  | none => .next s

/-! ### Placing (R235 to R237) -/

/-- The first free slot of a beam's quadrant. -/
def Core.slotFor (c : Core) (idx : Nat) : Nat :=
  ((List.range 16).map (fun i => 16 * (idx % 4) + i)).find? (fun i => (c.beams.look i).isNone) |>.getD (16 * (idx % 4))

/-- A beam put in its slot, with the slot's next generation tag (R237). -/
def State.seat (s : State) (core idx : Nat) (mk : BitVec 16 → Beam) : Nat × State :=
  let slot := (s.core core).slotFor idx
  let gen := (s.core core).beamGens.getD slot 0 + 1
  (slot, s.updCore core (fun c => { c with beams := c.beams.put slot (mk gen), beamGens := c.beamGens.put slot gen }))

/-- The c registers at launch (R236), within the declared count. -/
def Launch.cregs (l : Launch) (k : Decl) (i : Nat) (nd : Option Node) : FMap Cell32 :=
  let w (n x : Nat) : Nat × Cell32 := (n, { val := BitVec.ofNat 32 x })
  let recs : List (Nat × Cell32) :=
    match l.recs.look i, nd with
    | some (a, n), some nd =>
      let base := nd.pool + a * nd.fill * nd.rsize
      [w 1 n, w 2 base, w 3 (base / 2 ^ 32), w 4 nd.rsize]
    | _, _ => []
  (putAll [] (recs ++ l.args.mapIdx (fun j x => (5 + j, { val := x })))).filter (fun e => decide (e.1 < k.cregs))

/-- Is the entry overlay of a launch to be loaded on a core before a team placed there issues: it is not resident, and either no team of the
launch has issued there, or its load has failed, or is in flight and may fail (R259)? -/
def State.entryDue (s : State) (n core : Nat) (l : Launch) (k : Kernel) : Bool :=
  ((s.core core).slotOf (ovlOf k.entry)).isNone &&
    (!l.entered.contains core || l.retry.contains core || s.ovls.any (fun o => o.core == core && o.entry == some n))

/-- A team as it starts on a core. -/
def State.newTeam (s : State) (v n core i : Nat) (l : Launch) (k : Kernel) (area : Option Nat) (stamp : Nat) : Team :=
  { vd := v, launch := n, index := i, gen := (s.core core).teamGen + 1, decl := k.decl, beams := l.beams
    position := if l.clustered then some (i % l.ctas) else none, cluster := i / l.ctas
    ext := l.ext.map (BitVec.ofNat 32), entry := s.entryDue n core l k, area := area, stamp := stamp
    array := l.node.bind (fun g => (l.recs.look i).map (fun a => (g.1, g.2, a.1))) }

/-- A team put on a core: its tag is new, and its counters are as given. -/
def State.seatTeam (s : State) (core : Nat) (t : Team) (counters : FMap Word) : State :=
  s.updCore core (fun c => { c with team := some t, teamGen := t.gen, counters := counters, older := [] })

/-- A pending team placed on a core in the state of R236. -/
def State.placeFresh (s : State) (v n core i : Nat) (l : Launch) (k : Kernel) (area : Option Nat) : State :=
  let (stamp, s) := s.name
  let t := s.newTeam v n core i l k area stamp
  let nd := l.node.bind (fun g => s.node? v g.1 g.2)
  let c := l.cregs k.decl i nd
  let s := s.seatTeam core t []
  (List.range l.beams).foldl (fun s b =>
    (s.seat core b (fun gen => { idx := b, gen := gen, decl := k.decl, flow := Flow.start (BitVec.allOnes 32) k.entry, c := c
                                 planted := !k.decl.noinit })).2) s

/-- A saved beam as it stands before its resume trap: zero registers, and the frozen paths of its save (R369, R378). -/
def Beam.resuming (b : Beam) (gen : BitVec 16) : Beam :=
  { idx := b.idx, gen := gen, decl := b.decl, flow := (b.handler.map (·.frozen)).getD b.flow, sleep := .ready }

/-- A saved team placed again: each beam that has not ended takes the resume trap at its saved address (R296, R366), and its allocation
reads zero until its handler restores it (R177, R377; log entry 166). -/
def State.placeSaved (s : State) (n core : Nat) (l : Launch) (k : Kernel) (x : SavedTeam) : State :=
  let (stamp, s) := s.name
  let t := { x.team with
    gen := (s.core core).teamGen + 1, stamp := stamp, entry := s.entryDue n core l k, spad := [], spadPz := [] }
  let s := s.seatTeam core t x.counters
  let r := x.beams.foldl (fun (acc : List (Nat × Word) × State) e =>
    let q := acc.2.seat core e.1 e.2.resuming
    (acc.1 ++ [(q.1, e.2.tpc)], q.2)) ([], s)
  r.1.foldl (fun s e => s.takeTrap core e.1 { cause := 0x12 } e.2 none) r.2

/-- Where the entry overlay is resident as a team is placed, a load that failed there before is tried no more, though the overlay be replaced
later (R259; DESIGN CHOICE, log entry 172). -/
def State.enterAt (s : State) (v n core : Nat) (k : Kernel) : State :=
  if ((s.core core).slotOf (ovlOf k.entry)).isSome then s.enter v n core false else s

/-- One team of a unit placed on its core. -/
def State.placeOne (s : State) (v n core i : Nat) (d : VDev) (k : Kernel) : State :=
  match s.launch? v n with
  | none => s
  | some l =>
    match l.teams.look i with
    | some .ended | some .killed => s
    | some (.saved x) =>
      ((s.setTeamSt v n i (.resident core)).updLaunch v n (fun l => { l with placed := l.placed ++ [i] })).placeSaved n core l k x
    | _ =>
      let area := (s.areasFree v n d l).head?
      let s := s.updLaunch v n (fun l => { l with
        teams := l.teams.put i (.resident core), placed := l.placed ++ [i], again := l.again.filter (· != i)
        next := if l.again.contains i then l.next else max l.next (i + 1) })
      s.placeFresh v n core i l k area

/-- A unit placed: all teams of a cluster launch's cluster before any of them issues (R235). -/
def State.placeUnit (s : State) (v n core i : Nat) (d : VDev) (l : Launch) (k : Kernel) : State :=
  let seats := (l.takes i).map (fun j => (j, if l.clustered then core + j % l.ctas else core))
  let s := s.govern v n ((seats.map (·.1)).headD i) l (seats.map (·.2)) (dieOf core)
  seats.foldl (fun s e => (s.placeOne v n e.2 e.1 d k).enterAt v n e.2 k) s

/-- R292: a pending or saved team is placed on a free core, by priority and turns; a queue at the head of the turn order whose
deficit is used up goes to the back instead. -/
def execTeamPlace (vd launch team core : Nat) (s : State) : Out :=
  match s.vds.look vd with
  | none => .next s
  | some d =>
    match d.launches.look launch with
    | none => .next s
    | some l =>
      match d.kernels.look l.handle with
      | none => .next s
      | some k =>
        let ready := s.ready vd d
        if !d.up || !ready.contains (l.queue, launch, team) || !s.gives vd d l team core then .next s
        else match d.turnOf (s.placeables vd d) ready l.queue with
          | .wait => .next s
          | .rotate order q =>
            .next ((s.updVd vd (fun d => { d with turn := order })).updQueue vd q (fun x =>
              { x with deficit := x.deficit + 1024 * x.quant }))
          | .go order => .next ((s.updVd vd (fun d => { d with turn := order })).placeUnit vd launch core team d l k)

/-! ### Pre-emption (R294) -/

/-- R294: a team's slice expires while a team of another queue of the same or a higher level waits for a core. -/
def execSliceExpiry (core : Nat) (s : State) : Out :=
  match s.levelAt core with
  | none => .next s
  | some (v, q, prio) =>
    match s.vds.look v with
    | none => .next s
    | some d =>
      let slice := (d.queues.look q).elim 0 (·.slice)
      if slice != 0 && s.residentAt core && (s.starved v d).any (fun e => e.1 != q && decide (d.prio e.1 ≤ prio)) then
        .next (s.preempt core)
      else .next s

/-- Does a victim come before another (R294): lowest priority, then idempotent, then most recently placed? -/
def victimBefore (a b : Nat × Bool × Nat) : Bool :=
  decide (b.1 < a.1) || (a.1 == b.1 && ((a.2.1 && !b.2.1) || (a.2.1 == b.2.1 && decide (b.2.2 < a.2.2))))

/-- What decides among victims: level, idempotence, placement. -/
def State.victimKey (s : State) (core : Nat) : Option (Nat × Bool × Nat) :=
  (s.levelAt core).bind (fun l => (s.core core).team.map (fun t => (l.2.2, t.decl.idem, t.stamp)))

/-- R294: the command processor pre-empts the first of the victims for a waiting team of a higher level. -/
def execPreempt (core : Nat) (s : State) : Out :=
  match s.levelAt core, s.victimKey core with
  | some (v, _, prio), some key =>
    match s.vds.look v with
    | none => .next s
    | some d =>
      let chosen (n : Nat) : Bool := s.residentAt n && (match s.levelAt n with | some (_, _, p) => s.victim v d p n | none => false)
      let best : Bool := (s.coresOf d).all (fun n =>
        !chosen n || (match s.victimKey n with | some k => !victimBefore k key | none => true))
      if s.residentAt core && s.victim v d prio core && best then .next (s.preempt core) else .next s
  | _, _ => .next s

/-- R295: a discarded team's copies have completed, and none of its writes is still to be performed (R208): it is pending again, before
the launch's other teams. -/
def execDiscardComplete (vd launch team : Nat) (s : State) : Out :=
  match (s.launch? vd launch).bind (fun l => l.teams.look team) with
  | some (.discarding core) =>
    let busy : Bool := s.leftovers core vd launch || (s.core core).kept.any (fun k =>
      k.1.isNone && k.2.vd == vd && k.2.launch == launch && k.2.index == team && s.copiesOf core none k.2.gen)
    if busy then .next s
    else .next (s.updLaunch vd launch (fun l => { l with teams := l.teams.del team, again := team :: l.again }))
  | _ => .next s

/-- Is a census of a beam of a core's team open or waiting (R296)? -/
def State.asking (s : State) (core : Nat) : Bool :=
  match (s.core core).team with
  | none => false
  | some t =>
    match s.vds.look t.vd with
    | none => false
    | some d =>
      let mine (c : Census) : Bool := c.beam.core == core && (match s.ref? c.beam with | some b => b.resp.isNone | none => false)
      d.slots.any (fun e => mine e.2) || d.waiting.any mine

/-- Does an `ovl` of the core's team still load (R262)? -/
def State.loadingFor (s : State) (core : Nat) : Bool :=
  s.ovls.any (fun l => match l.beam with
    | some r => r.core == core && (match s.ref? r with | some b => b.resp.isNone | none => false)
    | none => false)

/-- Is the save of a core's team complete (R296)? -/
def State.saveDone (s : State) (core : Nat) : Bool :=
  match (s.core core).team with
  | none => false
  | some t =>
    (s.teamBeams core).all (fun e => e.2.sleep == .saved) && !s.copiesOf core none t.gen && !s.asking core && !s.loadingFor core &&
      !s.leftovers core t.vd t.launch

/-- A saved team switched out (R296): barrier state, counter images and beams are kept, and the records of the narrow releases that it
made are cleared (R203). -/
def State.switchOut (s : State) (core : Nat) : State :=
  match (s.core core).team with
  | none => s
  | some t =>
    let x : SavedTeam := {
      team := t, counters := (s.core core).counters, beams := putAll [] ((s.teamBeams core).map (fun e => (e.2.idx, e.2))) }
    let s := s.updCore core (fun c => { c with team := none, beams := c.beams.filter (fun e => e.2.resp.isSome) })
    let mine : Narrow := { core := core, resp := none, gen := t.gen }
    let s : State := { s with narrow := s.narrow.map (fun e => (e.1, e.2.filter (fun r => r.2 != mine))) }
    (s.setTeamSt t.vd t.launch t.index (.saved x)).unplace t.vd t.launch t.index

/-- R296: every beam's `ctxsv` is complete, and the team is saved, with its whole cluster (R235). -/
def execSaveComplete (vd launch team : Nat) (s : State) : Out :=
  match (s.launch? vd launch).bind (fun l => l.teams.look team) with
  | some (.saving core) =>
    match (s.core core).team with
    | none => .next s
    | some t =>
      let cs := s.clusterCores core none
      if cs.all s.saveDone then .next ((cs.foldl State.switchOut s).chargeOut t) else .next s
  | _ => .next s

/-- Is a copy of the core's team to another device in flight (R296)? -/
def State.farCopies (s : State) (core : Nat) : Bool :=
  match (s.core core).team with
  | none => false
  | some t => s.copies.any (fun c => c.beam.core == core && c.resp.isNone && c.teamGen == t.gen && c.out && !c.reach.2.isEmpty)

/-- R296: a save misses its bound, and its launch ends with SAVEFAIL. -/
def execSaveTimeout (vd launch team : Nat) (s : State) : Out :=
  match (s.launch? vd launch).bind (fun l => l.teams.look team) with
  | some (.saving core) =>
    if s.asking core || s.farCopies core then .next s else .next (s.killLaunch vd launch 8 nobody 0)
  | _ => .next s

end Sys2Proof.Machine
end

