-- ==== Sys2Proof/Machine/Power.lean ====
section
/-!
DEFINITION. Idle collapse and waking (R331 to R340), the governor (R26), and cores that are retired (R389).
-/
namespace Sys2Proof.Machine

/-! ### The idle condition (R331) -/

/-- The operation of a request. -/
def reqOp (r : MReq) : Nat := bitsOf r.header.toNat 0 8

/-- The virtual device that a request names. -/
def reqVd (r : MReq) : Nat := bitsOf r.header.toNat 16 8

/-- Is HEAD of a queue equal to its TAIL? -/
def State.drained (s : State) (v : Nat) (x : Queue) : Bool := s.tail v x == some x.head

/-- Is a virtual device idle? A directory move of its cores in flight is one of the things that await an acknowledgement (log entry 157),
and a request that a port holds one that is in progress. -/
def State.idle (s : State) (v : Nat) (d : VDev) : Bool :=
  let mine (core : Nat) : Bool := d.cores.contains core
  d.queues.all (fun q => s.drained v q.2 && !s.work v q.1) &&
    d.graphs.all (fun g => g.2.done || g.2.nodes.all (fun n => n.2.bin.isEmpty && n.2.excess.isEmpty)) &&
    d.launches.all (fun l => l.2.st == .done) && d.slots.isEmpty && d.waiting.isEmpty &&
    d.cores.all (fun n => (s.core n).team.isNone) &&
    !s.ovls.any (fun l => mine l.core) && !s.copies.any (fun c => mine c.beam.core) && !s.gops.any (fun g => mine g.beam.core) &&
    !s.moves.any (fun m => m.vd == v) && !s.mgmt.invals.any (fun i => i.vd == v) && !s.mgmt.held.any (fun r => reqVd r == v)

/-- The lead die of a virtual device (R332). -/
def VDev.lead (d : VDev) : Nat := d.dies.headD 0

/-- R332: the idle count reaches its threshold, and the collapse starts; a wake write that has been performed has set the count back. -/
def execIdleThreshold (vd : Nat) (s : State) : Out :=
  match s.vds.look vd with
  | none => .next s
  | some d =>
    if d.power == .awake && d.field 544 32 != 0 && s.idle vd d && !s.wakeBits.any (fun e => e.2 == (vd, true)) then
      .next ((s.govTick d.lead).updVd vd (fun d => { d with power := .collapsing, stage := 0 }))
    else .next s

/-! ### What a collapse does (R334, R335) -/

/-- The translations of a virtual device dropped from the caches of its cores and every die's unit. -/
def State.dropTranslations (s : State) (v : Nat) : State :=
  { s with
    cores := s.cores.map (fun c => (c.1, { c.2 with tlb := c.2.tlb.filter (fun t => t.vd != v) }))
    dtu := s.dtu.map (fun e => (e.1, e.2.filter (fun t => t.vd != v))) }

/-- A core powered off: its slots are empty, its cycle counter and sample counters restart at 0. -/
def Core.off (c : Core) : Core := { c with slots := [], cyc := 0, sample := [], older := [] }

/-- The 8 KiB image of a core's directory (R304). -/
def Core.dirImage (c : Core) : List Byte := ((List.range 256).map (fun i => leBytes 32 (c.entry i).bits)).flatten

/-- The cores of a virtual device with their parts of DIRSAVE (R328). -/
def VDev.dirParts (d : VDev) : List (Nat × Nat) := d.cores.mapIdx (fun i n => (n, d.field 464 48 + 8192 * i))

/-- The directories of a virtual device copied to DIRSAVE, core by core, as the cores power off. -/
def State.saveDirs (s : State) (d : VDev) : State :=
  d.dirParts.foldl (fun s e => (s.storeBytes e.2 ((s.core e.1).dirImage) false).updCore e.1 (fun c => { c with dir := [] })) s

/-- An entry from its 32 bytes (R304). -/
def dirEntryOf (x : Nat) : DirEntry :=
  { answered := BitVec.ofNat 64 (x / 2 ^ 192), state := bitsOf x 184 3, addr := BitVec.ofNat 56 (x / 2 ^ 128)
    len := BitVec.ofNat 32 (x / 2 ^ 96), tag := BitVec.ofNat 32 (x / 2 ^ 64), key := BitVec.ofNat 64 x }

/-- A directory as its image in memory gives it; an entry in a poisoned line is freed, as R383 frees one that is in error. -/
def State.dirAt (s : State) (a : Nat) : FMap DirEntry :=
  putAll [] ((List.range 256).filterMap (fun i =>
    let e := dirEntryOf (s.readNat (a + 32 * i) 32)
    if e = {} || s.linePoisoned (a + 32 * i) 32 then none else some (i, e)))

/-- The directories of a virtual device written back from DIRSAVE (R335). -/
def State.loadDirs (s : State) (d : VDev) : State :=
  d.dirParts.foldl (fun s e => s.updCore e.1 (fun c => { c with dir := s.dirAt e.2 })) s

/-- The regions that an eclipse copies, and where they go: segments in ascending order, then DIRSAVE (R328, R335). -/
def VDev.regions (d : VDev) : List (Nat × Nat × Nat) :=
  let base := d.field 656 48
  d.segments.mapIdx (fun i g => (g * 2 ^ 30, base + i * 2 ^ 30, 2 ^ 30)) ++
    [(d.field 464 48, base + d.segments.length * 2 ^ 30, 131072 * d.clusters.length)]

/-- Bytes copied from one place to another with the marks of their lines: a line that cannot be read is poisoned, and one behind a port
that refuses writes stays as it was (R353, R383). -/
def State.region (s : State) (v src dst len : Nat) : State :=
  let s := s.foundAll v src len
  let from_ (a : Nat) : Bool := decide (src ≤ a) && decide (a < src + len) && !s.shut (a - src + dst)
  let covers (a : Nat) : Bool := decide (dst ≤ a) && decide (a < dst + len) && !s.shut a
  let cells := (s.mem.filter (fun c => from_ c.1)).map (fun c => (c.1 - src + dst, c.2))
  let marks := (s.linePz.filter (fun g => from_ (64 * g))).map (fun g => (64 * g - src + dst) / 64)
  { s with
    mem := cells.foldl (fun m c => Memory.write m c.1 c.2) (s.mem.filter (fun c => !covers c.1))
    linePz := marks.foldl markIn (s.linePz.filter (fun g => !covers (64 * g))) }

/-- Does a CXL port that is out hold the copies into and out of the eclipse area of a virtual device (R335, R392)? -/
def State.eclipseHeld (s : State) (d : VDev) : Bool :=
  d.wakeClass == 3 && d.regions.any (fun r => s.mgmt.devices.any (fun e =>
    decide (e.2.1 < r.2.1 + r.2.2) && decide (r.2.1 < e.2.1 + e.2.2 * 2 ^ 30) && s.mgmt.ports.look e.1 == some .calibrating))

/-- One more step of a collapse: what it loses and copies. The clocks that the first gates are timing. The command processor's copies
are no wake writes. -/
def State.collapseStep (s : State) (v : Nat) (d : VDev) : State :=
  match d.stage with
  | 0 => s
  | 1 => d.cores.foldl (fun s n => s.updCore n Core.off) (s.dropTranslations v)
  | 2 => { s.saveDirs d with wakeBits := s.wakeBits }
  | _ => d.regions.foldl (fun s r => s.region v r.1 r.2.1 r.2.2) s

/-- The next step of a collapse done, where its class has one more; the copy into the eclipse area waits while a port holds it. -/
def State.collapseOne (s : State) (v : Nat) : State :=
  match s.vds.look v with
  | none => s
  | some d =>
    if d.power == .collapsing && decide (d.stage ≤ d.wakeClass) && !(d.stage == 3 && s.eclipseHeld d) then
      (s.collapseStep v d).updVd v (fun d => { d with stage := d.stage + 1 })
    else s

/-- R335: every step of the class is done. -/
def execCollapseComplete (vd : Nat) (s : State) : Out :=
  match s.vds.look vd with
  | none => .next s
  | some d =>
    if d.power == .collapsing && !(decide (d.stage ≤ 3) && s.eclipseHeld d) then
      .next (((List.range 4).foldl (fun s _ => s.collapseOne vd) s).updVd vd (fun d => { d with power := .collapsed }))
    else .next s

/-! ### Waking (R335, R336, R340) -/

/-- A virtual device that starts to wake: notices go to the governor agent of each of its dies. -/
def VDev.wake (d : VDev) : VDev :=
  { d with power := .waking, notices := d.dies, counting := [], faulted := false, woke := d.dies, wokeBy := none, served := false }

/-- What a wake still has to undo undone, in reverse order; the copy out of the eclipse area waits while a port holds it (R335, R392). -/
def State.restored (s : State) (v : Nat) : State :=
  match s.vds.look v with
  | none => s
  | some d =>
    if d.power != .waking || (decide (4 ≤ d.stage) && s.eclipseHeld d) then s
    else
      let s := if 4 ≤ d.stage then d.regions.foldr (fun r s => s.region v r.2.1 r.1 r.2.2) s else s
      let s := if 3 ≤ d.stage then s.loadDirs d else s
      s.updVd v (fun d => { d with stage := 0 })

/-- A wake write or wake request reaches a virtual device: of a collapse, the steps that are done are undone in reverse order. -/
def State.wakeVd (s : State) (v : Nat) : State :=
  match s.vds.look v with
  | none => s
  | some d =>
    match d.power with
    | .collapsing | .collapsed => (s.updVd v VDev.wake).restored v
    | _ => s

/-- R336: a write to a line whose wake bit is set is recognised, and wakes its virtual device. -/
def execWakeWrite (line : Nat) (s : State) : Out :=
  match s.wakeBits.look line with
  | some (v, true) => .next ({ s with wakeBits := s.wakeBits.put line (v, false) }.wakeVd v)
  | _ => .next s

/-- R336: a governor agent receives a wake notice, and counts. -/
def execWakeNotice (vd die : Nat) (s : State) : Out :=
  match s.vds.look vd with
  | none => .next s
  | some d =>
    if d.notices.contains die then
      .next (s.updVd vd (fun d => { d with notices := d.notices.filter (· != die), counting := d.counting ++ [die] }))
    else .next s

/-- R335: the wake is complete, once every notice has been received and what the collapse did is undone. A queue that waits to be mapped is still served first (R282). Its
bound is counted on until the first team's first instruction issues, where a launch can be placed by now (R336). -/
def execWakeComplete (vd : Nat) (s : State) : Out :=
  let s := s.restored vd
  match s.vds.look vd with
  | none => .next s
  | some d =>
    if d.power == .waking && d.stage == 0 && d.notices.isEmpty then
      let waits : Bool := d.queues.any (fun q => q.2.thread.isNone && q.2.status == 0 && (s.tail vd q.2).any (· != q.2.head))
      let on : Bool := d.wokeBy.isSome || d.launches.any (fun l => !l.2.candidates.isEmpty)
      .next (s.updVd vd (fun d => { d with power := .awake, counting := if on then d.counting else [], served := d.served || !waits }))
    else .next s

/-- The wake bound of a class, in governor cycles (R333). -/
def wakeBound (cls : Nat) : Nat :=
  match cls with
  | 0 => 17500
  | 1 => 262500
  | 2 => 3500000
  | _ => 52500000

/-- The die whose governor counts a wake: that of the first team placed since, or the lead die (R336). -/
def VDev.counter (d : VDev) : Nat := (d.wokeBy.map (·.die)).getD d.lead

/-- Is a wake still counted? That die has its notice, and no instruction of the first team placed since has issued (R336). -/
def VDev.counts (d : VDev) : Bool :=
  d.counting.contains d.counter && (d.power == .waking || d.power == .awake) &&
    (match d.wokeBy with
     | some f => !f.issued && (d.launches.look f.launch).any (fun x => x.st != .done)
     | none => true)

/-- R340: the counted cycles pass the bound of the class; the fault is reported with the part that failed, and the wake goes on.
DESIGN CHOICE (log 126): the part stands in ADDR, as a free value. -/
def execWakeFault (vd cycles : Nat) (s : State) : Out :=
  match s.vds.look vd with
  | none => .next s
  | some d =>
    if d.counts && !d.faulted && decide (wakeBound d.wakeClass < cycles) then
      let (k, s) := (s.govTick d.counter).take
      .next ((s.pushErr vd (errEntry 0x04 d.wakeClass 0 cycles nobody nobody 0 (Config.freeWord k).toNat)).updVd vd
        (fun d => { d with faulted := true }))
    else .next s

/-! ### The governor (R26) -/

/-- R26: the governor lowers a die's operating point; hints name lower frequencies by higher numbers (R293). -/
def execOperatingPointLower (die point : Nat) (s : State) : Out :=
  if die < 8 && decide (s.pointOf die < point) && decide (point < 8) then
    .next { s with gov := s.gov.put die { (s.gov.getD die {}) with limit := point, point := point } }
  else .next s

/-! ### Retired cores (R388, R389) -/

/-- The virtual device that owns a core. -/
def State.ownerOfCore (s : State) (core : Nat) : Option (Nat × VDev) := s.vds.find? (fun e => e.2.cores.contains core)

/-- A spare in a core's position: it takes the number and the directory (R19, R304), and starts afresh otherwise. -/
def Core.spare (c : Core) : Core := { dir := c.dir, beamGens := c.beamGens, teamGen := c.teamGen }

/-- Directory entries passed to free entries of other cores, in core order: how many found no room, and the state. -/
def State.passEntries (s : State) (cores : List Nat) (es : List DirEntry) : Nat × State :=
  es.foldl (fun acc e =>
    match cores.findSome? (fun n => ((acc.2.core n).freeEntry).map (fun i => (n, i))) with
    | some (n, i) => (acc.1, acc.2.setEntry n i e)
    | none => (acc.1 + 1, acc.2)) (0, s)

/-- A spare has taken a core's place: the entry overlays that launches of the owner have had loaded there are not on it (R259, R389). -/
def State.freshCore (s : State) (core : Nat) : State :=
  match s.ownerOfCore core with
  | some (v, _) => s.updVd v (fun d => { d with launches := d.launches.map (fun e =>
      (e.1, { e.2 with entered := e.2.entered.filter (· != core), retry := e.2.retry.filter (· != core) })) })
  | none => s

/-- An entry of type 0x03 (R389). -/
def State.noteRetired (s : State) (core sub count : Nat) : State :=
  match s.ownerOfCore core with
  | some (v, _) => s.pushErr v (errEntry 0x03 sub 0 count nobody core 0 0)
  | none => s

/-- May a retired core be replaced? Its team is gone, no census of its virtual device is open, and no move concerns it. -/
def State.mayRetire (s : State) (core : Nat) : Bool :=
  let c := s.core core
  let census : Bool := match s.ownerOfCore core with
    | some (_, d) => !d.slots.isEmpty || !d.waiting.isEmpty
    | none => false
  c.retired && c.team.isNone && c.resps.isEmpty && c.kept.isEmpty && !census && !s.mgmt.gone.contains core &&
    !s.moves.any (fun m => m.src == core || m.dst == core) && !s.ovls.any (fun l => l.core == core)

/-- The cluster launches of a virtual device that has no whole cluster left complete with NOFIT, and their teams end (R389; log entry
182). -/
def State.noCluster (s : State) (v : Nat) : State :=
  match s.vds.look v with
  | some d =>
    if (s.wholeClusters d).isEmpty then
      ((d.launches.filter (fun l => l.2.clustered && (l.2.st == .dispatched || l.2.st == .running))).map (·.1)).foldl
        (fun s l => s.killTeams v l 5) s
    else s
  | none => s

/-- R389: a spare takes a retired core's number and directory; where the die has none left, the position stays empty and the
directory passes to the cluster's other cores, once it has been restored where a collapse has saved it (R334). -/
def execCoreRetirement (core : Nat) (s : State) : Out :=
  if !s.mayRetire core then .next s
  else
    let die := dieOf core
    let left := s.mgmt.spares.getD die 16
    if 0 < left then
      .next ((({ s with mgmt := { s.mgmt with spares := s.mgmt.spares.put die (left - 1) } }.updCore core Core.spare).freshCore core).noteRetired
        core 0 1)
    else
      let others := ((List.range 16).map (fun i => core / 16 * 16 + i)).filter (fun n => n != core && !s.mgmt.gone.contains n)
      if (s.ownerOfCore core).any (fun e => decide (3 ≤ e.2.stage)) then .next s
      else
      let r := s.passEntries others ((s.core core).dir.map (·.2))
      let t := ({ r.2 with mgmt := { r.2.mgmt with gone := r.2.mgmt.gone ++ [core] } }.updCore core (fun c => { c with dir := [] }))
        |>.noteRetired core 1 r.1
      .next (match s.ownerOfCore core with | some (v, _) => t.noCluster v | none => t)

end Sys2Proof.Machine
end

