-- ==== Sys2Proof/Machine/Ports.lean ====
section
/-!
DEFINITION. Ports and associations: integrity and keys of the CXL links (R353), re-calibration and failure (R392), devices added
(R393), and the packets that remote hosts and other devices send (R338, R347, R354, R390).
-/
namespace Sys2Proof.Machine

/-! ### Ports (R353, R392) -/

/-- The number under which a port is held: CXL ports 0 to 15, then the Ultra Ethernet ports. -/
def portKey (p : Port) : Nat := if p.cxl then p.index else 16 + p.index

/-- The port of a number. -/
def portOfKey (key : Nat) : Port := if key < 16 then { cxl := true, index := key } else { cxl := false, index := key - 16 }

/-- Is a port one that the package has (R15)? -/
def portOk (p : Port) : Bool := decide (p.index < if p.cxl then 16 else 8)

/-- The edge die of a port: 0 for E0, 1 for E1 (R15). -/
def portDie (key : Nat) : Nat := if key < 16 then key / 8 else (key - 16) / 4

/-- The state of a port. -/
def State.portSt (s : State) (key : Nat) : PortSt := s.mgmt.ports.getD key .secure

/-- The state of a port set. -/
def State.setPort (s : State) (key : Nat) (st : PortSt) : State := { s with mgmt := { s.mgmt with ports := s.mgmt.ports.put key st } }

/-- Does a range of bytes touch a device on a CXL port? -/
def State.onPort (s : State) (port base len : Nat) : Bool :=
  s.mgmt.devices.any (fun d => d.1 == port && decide (d.2.1 < base + len) && decide (base < d.2.1 + d.2.2 * 2 ^ 30))

/-- Does a virtual device use a port (R392)? Its pooled and granted ranges lie behind it, or a peer entry permits it. -/
def State.usesPort (s : State) (v : Nat) (d : VDev) (key : Nat) : Bool :=
  if key < 16 then
    d.pools.any (fun r => s.onPort key r.1 r.2) ||
      s.mgmt.shared.any (fun e => (e.2.grants.look v).isSome && s.onPort key e.2.base (e.2.gib * 2 ^ 30))
  else d.peers.any (fun e => e.2.getLsbD 0 && e.2.getLsbD (32 + (key - 16)))

/-- An entry written for every virtual device that uses a port (R392). -/
def State.notePort (s : State) (type key : Nat) : State :=
  let sub := if key < 16 then 128 + key else key - 16
  (s.vds.filter (fun e => s.usesPort e.1 e.2 key)).foldl (fun s e => s.pushErr e.1 (errEntry type sub 0 1 nobody nobody 0 0)) s

/-- R392: a port is taken out for re-calibration, one at a time on each edge die. -/
def execPortRecalibrate (port : Port) (s : State) : Out :=
  let key := portKey port
  let other : Bool := s.mgmt.ports.any (fun e => e.2 == .calibrating && portDie e.1 == portDie key)
  if portOk port && s.portSt key == .secure && !other then .next ((s.setPort key .calibrating).notePort 0x07 key) else .next s

/-- A port that carries no traffic from now on; what copies have read through it while it was out is lost (R353, R392). -/
def State.losePort (s : State) (key : Nat) : State :=
  let t := s.setPort key .failed
  if s.portSt key == .calibrating then s.copies.foldl (fun t c => t.loseReads (fun a => t.shut a && !s.shut a) c) t else t

/-- R392: a port is not re-established in its bound, and has failed. -/
def execPortFail (port : Port) (s : State) : Out :=
  let key := portKey port
  if portOk port && s.portSt key == .calibrating then
    .next ((s.losePort key).notePort 0x08 key)
  else .next s

/-- R392: a port carries traffic again. -/
def execPortReestablished (port : Port) (s : State) : Out :=
  let key := portKey port
  if portOk port && s.portSt key != .secure then .next (s.setPort key .secure) else .next s

/-- R353: a CXL port reports an integrity failure or leaves the secure state. -/
def execCxlIntegrityFailure (port : Nat) (s : State) : Out :=
  if decide (port < 16) && s.portSt port != .failed then .next (s.losePort port) else .next s

/-- R353: the stream keys of a port are refreshed. -/
def execIdeKeyRefresh (port : Nat) (s : State) : Out :=
  if port < 16 then
    .next { s with mgmt := { s.mgmt with ideKeys := s.mgmt.ideKeys.put port (s.mgmt.ideKeys.getD port 0 + 1) } }
  else .next s

/-- The pooled window (R182). -/
def poolWindow : Nat := 2 ^ 47

/-- R393: a CXL device joins at its port's part of the pooled window, and changes no range that exists. -/
def execCxlDeviceAdd (port base gib : Nat) (s : State) : Out :=
  let ok : Bool := decide (port < 16) && decide (poolWindow ≤ base) && decide (base + gib * 2 ^ 30 ≤ 2 ^ 48) && base % 2 ^ 30 == 0 &&
    gib != 0 && s.mgmt.devices.all (fun d => decide (base + gib * 2 ^ 30 ≤ d.2.1) || decide (d.2.1 + d.2.2 * 2 ^ 30 ≤ base))
  if ok then .next { s with mgmt := { s.mgmt with devices := s.mgmt.devices ++ [(port, base, gib)] } } else .next s

/-! ### Accesses from outside (R338, R347, R390) -/

/-- Does a collapsed virtual device refuse outside accesses to an address, its segments being in self-refresh or off (R335, R338)? -/
def VDev.asleepAt (d : VDev) (pa : Nat) : Bool := decide (3 ≤ d.stage) && d.inSegments pa 1

/-- Where an outside access to a virtual device goes: none where it is refused, as a write is at a port that is shut (R353). -/
def State.hostPlace (s : State) (v va n : Nat) (need : Rights) : Option Nat :=
  match s.vds.look v, s.cpPlace v va n { need with h := true } with
  | some d, .here pa => if d.asleepAt pa || (need.w && s.shut pa) then none else some pa
  | _, _ => none

/-- Do the CXL ports hold an access from outside to some bytes (R392)? -/
def State.hostHeld (s : State) (v va n : Nat) (need : Rights) : Bool :=
  (lineParts va n).any (fun p => (s.hostPlace v p.1 p.2 need).any s.portOut)

/-- Do the CXL ports hold what a packet for a virtual device does there (R392)? -/
def State.remoteHeld (s : State) (v : Nat) : Remote → Bool
  | .rows rows => rows.any (fun r => s.hostHeld v r.1 r.2.length { w := true })
  | .read va len => s.hostHeld v va len { r := true }
  | .atomic _ ty va _ _ => s.hostHeld v va (ty.width / 8) { w := true, a := true }
  | .anchor _ _ => false

/-- The parts of a row resolved, or none where any part is refused: nothing of such a row is written (R390). -/
def State.rowPlaces (s : State) (v va : Nat) (bs : List Byte) : Option (List (Nat × List Byte)) :=
  (lineParts va bs.length).foldl (fun acc p =>
    match acc, s.hostPlace v p.1 p.2 { w := true } with
    | some l, some pa => some (l ++ [(pa, (bs.drop (p.1 - va)).take p.2)])
    | _, _ => none) (some [])

/-- Rows written for a remote sender: how many were refused, and the state. -/
def State.takeRows (s : State) (v : Nat) (rows : List (Nat × List Byte)) : Nat × State :=
  rows.foldl (fun acc r =>
    match acc.2.rowPlaces v r.1 r.2 with
    | some ps => (acc.1, ps.foldl (fun s p => s.storeBytes p.1 p.2 false) acc.2)
    | none => (acc.1 + 1, acc.2)) (0, s)

/-- An entry of type 0x05 for rows refused (R390). -/
def State.noteRefused (s : State) (v count : Nat) : State :=
  if count = 0 then s else s.pushErr v (errEntry 0x05 0 0 count nobody nobody 0 0)

/-- What an association packet bound to a virtual device does there (R338, R347, R354). -/
def State.remote (s : State) (v : Nat) : Remote → State
  | .rows rows =>
    let r := s.takeRows v rows
    r.2.noteRefused v r.1
  | .read va len =>
    (lineParts va len).foldl (fun s p =>
      match s.hostPlace v p.1 p.2 { r := true } with
      | some pa => s.found v pa p.2
      | none => s) s
  | .atomic op ty va val cmp =>
    let n := ty.width / 8
    match (if (n = 4 || n = 8) && va % n = 0 then s.hostPlace v va n { w := true, a := true } else none) with
    | some pa =>
      if s.linePoisoned pa n then s.noteRefused v 1
      else s.storeNat pa n (atomNew ty op (s.readNat pa n) (val.toNat % 2 ^ (8 * n)) (cmp.toNat % 2 ^ (8 * n)))
    | none => s.noteRefused v 1
  | .anchor off bytes =>
    if decide (off + bytes.length ≤ 2 ^ 21) && (s.vds.look v).isSome then s.storeBytes (v * 2 ^ 21 + off) bytes false else s

/-! ### Associations (R354) -/

/-- The association of a number. -/
def State.assoc? (s : State) (a : Nat) : Option Assoc := s.mgmt.assocs.look a

/-- An association changed. -/
def State.updAssoc (s : State) (a : Nat) (f : Assoc → Assoc) : State :=
  { s with mgmt := { s.mgmt with assocs := s.mgmt.assocs.upd a f } }

/-- Is a packet number one to act on: not below the replay window of 1,024, and not seen in it? -/
def Assoc.fresh (a : Assoc) (n : Nat) : Bool := decide (a.top < n + 1024) && !a.seen.contains n

/-- A packet number taken. -/
def Assoc.take (a : Assoc) (n : Nat) : Assoc :=
  let top := max a.top n
  { a with top := top, seen := (n :: a.seen).filter (fun k => decide (top < k + 1024)) }

/-- R354: an association agrees a key with an endpoint whose signature verifies, or replaces its key. -/
def execAssociationKeyAgreement (assoc : Nat) (host : BitVec 512) (salt : BitVec 32) (verified : Bool) (s : State) : Out :=
  if !verified then .next s
  else match s.assoc? assoc with
    | none => .next { s with mgmt := { s.mgmt with assocs := s.mgmt.assocs.put assoc { host := host, salt := salt } } }
    | some a =>
      if a.host = host then .next (s.updAssoc assoc (fun a => { a with salt := salt, top := 0, seen := [] })) else .next s

end Sys2Proof.Machine
end

