-- ==== Sys2Proof/Machine/Manage.lean ====
section
/-!
DEFINITION. The management path: requests and responses (R355 to R358), owners and elections (R359, R360), status (R358),
firmware (R391), and the operations on associations and the authorised list.
-/
namespace Sys2Proof.Machine

/-! ### Requests (R355) -/

/-- n bytes of ARGS from a header byte. -/
def reqArg (r : MReq) (at_ n : Nat) : Nat := bitsOf r.header.toNat (8 * at_) (8 * n)

/-- Is everything of the header zero that must be, and does the payload have the length that PLEN says? `fields` are the ARGS
bytes that the operation names: first byte and count. -/
def reqShape (r : MReq) (fields : List (Nat × Nat)) : Bool :=
  bitsOf r.header.toNat 8 8 == 0 && bitsOf r.header.toNat 24 8 == 0 && bitsOf r.header.toNat 32 32 == r.body.length &&
    (List.range 48).all (fun i => fields.any (fun f => decide (f.1 ≤ i + 16) && decide (i + 16 < f.1 + f.2)) || reqArg r (i + 16) 1 == 0)

/-! ### Responses (R358) -/

/-- What a response carries beside what its request returns. -/
structure Reply where
  status : Nat := 0
  result : Nat := 0
  body   : List Byte := []

/-- The package's number for an association goes in REQID of the first response on it (R357). -/
def State.reply (s : State) (r : MReq) (p : Reply) : State :=
  let told : Bool := match s.assoc? r.assoc with | some a => a.told | none => true
  let id := if told then bitsOf r.header.toNat 64 64 else r.assoc
  let h := respHeader (reqOp r) p.status (reqVd r) p.body.length id p.result
  let s := s.updAssoc r.assoc (fun a => { a with told := true })
  { s with mgmt := { s.mgmt with sent := s.mgmt.sent ++ [{ assoc := some r.assoc, header := h, body := p.body }] } }

/-! ### Who may ask (R356) -/

/-- The digest of the host that a request comes from. -/
def State.hostOf (s : State) (r : MReq) : Option (BitVec 512) := (s.assoc? r.assoc).map (·.host)

/-- Is the host on the authorised list? -/
def State.authorised (s : State) (r : MReq) : Bool :=
  match s.hostOf r with
  | some h => s.mgmt.listed.any (fun e => e.2 == h)
  | none => false

/-- Is the host the owner? -/
def State.isOwner (s : State) (r : MReq) : Bool := s.mgmt.owner.isSome && s.hostOf r == some s.mgmt.ownerKey

/-- Is the host bound to the virtual device that the request names? -/
def State.isBound (s : State) (r : MReq) : Bool :=
  match s.hostOf r with
  | some h => s.mgmt.assocs.any (fun e => e.2.host == h && e.2.bound == .vdev (reqVd r))
  | none => false

/-- Does a binding lead to the management path? An association that no owner has bound yet does (log entry 62): otherwise the first
election could have no claim. -/
def Binding.managed : Binding → Bool
  | .vdev _ => false
  | _ => true

/-- Does the request arrive on the management path? -/
def State.onPath (s : State) (r : MReq) : Bool :=
  match s.assoc? r.assoc with
  | some a => a.bound.managed
  | none => false

/-- A request served: one that is not permitted is answered with 0xF, a malformed one with 0xE, and neither changes anything
(R355, R356). `act` answers none for a malformed request; an answer of none within it is sent later. -/
def State.manage (s : State) (r : MReq) (op : Nat) (permitted : Bool) (fields : List (Nat × Nat))
    (act : State → Option (Option Reply × State)) : Out :=
  if reqOp r ≠ op || !s.onPath r then .next s
  else if !permitted then .next (s.reply r { status := 0xF })
  else if !reqShape r fields then .next (s.reply r { status := 0xE })
  else match act s with
    | none => .next (s.reply r { status := 0xE })
    | some (some p, s) => .next (s.reply r p)
    | some (none, s) => .next s

/-- The answer of a request whose condition does not hold. -/
def refusedReply : Reply := { status := 0xF }

/-- A request with no payload. -/
def bare (r : MReq) : Bool := r.body.isEmpty

/-! ### Elections and owners (R359, R360) -/

/-- A fresh challenge drawn. -/
def State.draw (s : State) : Nat × State := s.take

/-- An election opened (R359). -/
def State.openElection (s : State) : State :=
  let (k, s) := s.draw
  { s with mgmt := { s.mgmt with owner := none, ownerKey := 0, open_ := true, claims := [], chall := k, handover := none } }

/-- R391: power-up: a package key is generated, no firmware is held, no queue is mapped, and an election opens. The authorised
list survives (R359). Retired cores, used spares and empty positions do not: every die starts with its 16 spares (log entry 143). -/
def execPowerUp (s : State) : Out :=
  let (k, s) := s.take
  .next ({ State.reset with
    mgmt := { State.reset.mgmt with listed := s.mgmt.listed, keyEpoch := k, devices := s.mgmt.devices }
    fresh := s.fresh, nextId := s.nextId, agenda := s.agenda, cur := none }.openElection)

/-- The key, signature and validity of a claim over the current challenge (R357, R359). -/
def State.claimOk (s : State) (r : MReq) : Bool :=
  Config.mldsaVerify (r.body.take 2592) (Config.sha3_512 (leBytes 64 (Config.challenge s.mgmt.chall).toNat)) (r.body.drop 2592)

/-- The digest of a claim's key. -/
def claimDigest (r : MReq) : BitVec 512 := Config.sha3_512 (r.body.take 2592)

/-- The list index of a digest. -/
def State.indexOf (s : State) (h : BitVec 512) : Option Nat := (s.mgmt.listed.find? (fun e => e.2 == h)).map (·.1)

/-- The length of a claim's payload. -/
def claimLen : Nat := 2592 + 4627

/-- R359: a claim in the open election. With an empty list, the first valid signature elects its sender. -/
def execClaimOwnership (req : MReq) (s : State) : Out :=
  s.manage req 0x30 (s.authorised req || s.mgmt.listed.isEmpty) [] (fun s =>
    if req.body.length ≠ claimLen then none
    else
      let h := claimDigest req
      if !s.mgmt.open_ || !s.claimOk req then some (some {}, s)
      else if s.mgmt.listed.isEmpty then
        some (some { result := 1 }, { s with mgmt := { s.mgmt with
          listed := [(0, h)], owner := some 0, ownerKey := h, open_ := false, claims := [] } })
      else match s.indexOf h with
        | some i => some (some { result := 1 }, { s with mgmt := { s.mgmt with claims := s.mgmt.claims ++ [(i, h)] } })
        | none => some (some {}, s))

/-- R359: the election closes: the valid claim with the lowest index wins, or the election opens again. -/
def execElectionClose (s : State) : Out :=
  if !s.mgmt.open_ then .next s
  else match (s.mgmt.claims.map (·.1)).min? with
    | some i => .next { s with mgmt := { s.mgmt with
        owner := some i, ownerKey := (s.mgmt.claims.lookup i).getD 0, open_ := false, claims := [] } }
    | none => .next s.openElection

/-- R360: the owner is lost, and an election opens. -/
def execOwnerLoss (s : State) : Out := if s.mgmt.owner.isSome then .next s.openElection else .next s

/-- R360: the owner names a host of the list. -/
def execHandOverOwnership (req : MReq) (s : State) : Out :=
  s.manage req 0x0F (s.isOwner req) [(16, 1)] (fun s =>
    let i := reqArg req 16 1
    if !bare req || (s.mgmt.listed.look i).isNone then none
    else
      let (k, s) := s.draw
      some (some {}, { s with mgmt := { s.mgmt with handover := some (i, k), chall := k } }))

/-- Is the host the one that a handover names? -/
def State.isNamed (s : State) (r : MReq) : Bool :=
  match s.mgmt.handover, s.hostOf r with
  | some (i, _), some h => s.mgmt.listed.look i == some h
  | _, _ => false

/-- R360: the named host accepts, and ownership moves. DESIGN CHOICE (log entry 189): a claim that does not verify, or of another key, is answered
0x0 and moves nothing. -/
def execAcceptHandover (req : MReq) (s : State) : Out :=
  s.manage req 0x31 (s.isNamed req) [] (fun s =>
    if req.body.length ≠ claimLen then none
    else match s.mgmt.handover with
      | none => some (some refusedReply, s)
      | some (i, _) =>
        if s.claimOk req && s.mgmt.listed.look i == some (claimDigest req) then
          some (some {}, { s with mgmt := { s.mgmt with
            owner := some i, ownerKey := claimDigest req, handover := none, open_ := false, claims := [] } })
        else some (some {}, s))

/-- The time to accept a handover has passed (R360). -/
def State.lapse (s : State) : State := { s with mgmt := { s.mgmt with handover := none } }

/-- R359: a digest entered in the authorised list; that of the owner's index leaves the owner what it is (R360). -/
def execSetAuthorisedDigest (req : MReq) (s : State) : Out :=
  if reqArg req 17 1 ≠ 0 then .next s
  else s.manage req 0x0E (s.isOwner req) [(16, 2)] (fun s =>
    if req.body.length ≠ 64 || 8 ≤ reqArg req 16 1 then none
    else some (some {}, { s with mgmt := { s.mgmt with
      listed := s.mgmt.listed.put (reqArg req 16 1) (BitVec.ofNat 512 (leNat req.body)) } }))

/-- R359: a digest removed from the authorised list. -/
def execClearAuthorisedDigest (req : MReq) (s : State) : Out :=
  if reqArg req 17 1 ≠ 1 then .next s
  else s.manage req 0x0E (s.isOwner req) [(16, 2)] (fun s =>
    if !bare req || 8 ≤ reqArg req 16 1 then none
    else some (some {}, { s with mgmt := { s.mgmt with listed := s.mgmt.listed.del (reqArg req 16 1) } }))

/-! ### Status, associations, firmware -/

/-- The status payload (R358); temperatures and power are what the sensors say. -/
def State.statusBytes (s : State) (k : Nat) : List Byte :=
  ((List.range 10).map (fun i => leBytes 2 (Config.temperature k i).toNat)).flatten ++ leBytes 4 (Config.modulePower k).toNat ++
    leBytes 1 (s.mgmt.owner.getD 0xFF) ++ List.replicate 7 0 ++ leBytes 8 ((s.vds.map (fun e => 2 ^ e.1)).sum) ++ List.replicate 24 0 ++
    leBytes 64 (Config.challenge s.mgmt.chall).toNat

/-- R358: the package status read. -/
def execReadPackageStatus (req : MReq) (s : State) : Out :=
  s.manage req 0x20 (s.authorised req) [] (fun s =>
    if !bare req then none
    else
      let (k, s) := s.take
      some (some { body := s.statusBytes k }, s))

/-- R354: an association bound to the management path or to a virtual device. -/
def execBindAssociation (req : MReq) (s : State) : Out :=
  s.manage req 0x07 (s.isOwner req) [(16, 8), (24, 1)] (fun s =>
    let a := reqArg req 16 8
    let to_ := reqArg req 24 1
    if !bare req || (s.assoc? a).isNone || 1 < to_ || (to_ == 1 && (s.vds.look (reqVd req)).isNone) then none
    else some (some {}, s.updAssoc a (fun x => { x with bound := if to_ = 0 then .mgmt else .vdev (reqVd req) })))

/-- Does a signature section verify over some bytes under a key (R49)? The 45 bytes after the signature are not looked at (log entry
127). -/
def signedBy (key digestedBytes section_ : List Byte) : Bool :=
  leNat (section_.take 64) == (Config.sha3_512 key).toNat &&
    Config.mldsaVerify key (Config.sha3_512 digestedBytes) ((section_.drop 64).take 4627)

/-- R391: new command-processor firmware for the threads of a mask. -/
def execUpdateFirmware (req : MReq) (s : State) : Out :=
  s.manage req 0x0D (s.isOwner req) [(16, 4)] (fun s =>
    if req.body.length < 4736 then none
    else
      let image := req.body.take (req.body.length - 4736)
      if !signedBy Config.dorayKey image (req.body.drop (req.body.length - 4736)) then some (some refusedReply, s)
      else some (some {}, ((List.range 32).filter (fun t => bitsOf (reqArg req 16 4) t 1 == 1)).foldl (fun s t =>
        s.updThread t (fun x => { x with next := some (Config.sha3_512 image) })) s))

/-- R391: a thread switches its firmware between packets, once its queue has no launch short of Done, waiting nodes of its graphs among them (R361; log
entry 164). -/
def execFirmwareSwitch (thread : Nat) (s : State) : Out :=
  let t := s.threads.getD thread {}
  match t.next with
  | none => .next s
  | some fw =>
    let busy : Bool := match t.queue with
      | some (v, q) => (match s.vds.look v with
        | some d => !(d.undoneOf q).isEmpty || !(d.waitingNodes q).isEmpty
        | none => false)
      | none => false
    if busy then .next s
    else
      let s := s.updThread thread (fun x => { x with fw := some fw, next := none })
      match t.queue with
      | some (v, _) => .next (s.pushErr v (errEntry 0x09 0 0 1 nobody nobody 0 0))
      | none => .next s

end Sys2Proof.Machine
end

