-- ==== Sys2Proof/Machine/Vdevs.lean ====
section
/-!
DEFINITION. Management operations on virtual devices: creation and admission (R327 to R330), destruction (R352), key sets (R351),
page-table roots, peers and invalidations (R344, R348, R349), queues (R281, R284, R337), contexts (R289), the deviation ring (R106),
job records (R365) and shared ranges (R362).
-/
namespace Sys2Proof.Machine

/-- Does the virtual device that a request names exist? -/
def State.names (s : State) (r : MReq) : Bool := (s.vds.look (reqVd r)).isSome

/-! ### Creation (R328 to R330) -/

/-- The bytes of a directory save area: 8 KiB × 16 for each cluster. -/
def VDev.dirSize (d : VDev) : Nat := 131072 * d.clusters.length

/-- The eclipse area: base, and its quota plus its directory save area. -/
def VDev.eclipseArea (d : VDev) : Nat × Nat := (d.field 656 48, d.segments.length * 2 ^ 30 + d.dirSize)

/-- The bytes of the deviation ring (R106). -/
def VDev.ringSize (d : VDev) : Nat := 64 + 32 * 2 ^ (4 + d.field 588 4)

/-- The base of the deviation ring. -/
def VDev.ringBase (d : VDev) : Nat := d.field 592 48

/-- The base of the directory save area. -/
def VDev.dirBase (d : VDev) : Nat := d.field 464 48

/-- Do the fields of a descriptor keep their ranges and its res0 bits their zeros (R330, code 0x2)? -/
def State.fieldsOk (s : State) (d : VDev) : Bool :=
  d.field 1000 24 == 0 && d.field 728 1 == 0 && d.field 704 24 != 0 && d.field 640 16 == 0 && d.field 578 5 == 0 &&
    d.field 512 16 == 0 && d.field 448 16 == 0 && d.field 0 192 == 0 &&
    (List.range 4).all (fun i => d.field (192 + 64 * i) 15 == 0 && d.field (192 + 64 * i + 49) 15 == 0 &&
      decide (d.field (192 + 64 * i + 33) 16 ≤ 16384)) &&
    (if d.wakeClass = 3 then d.field 656 30 == 0 else d.field 656 48 == 0) &&
    d.ringBase % 64 == 0 && decide (d.field 588 4 ≤ 12) && decide (d.field 584 4 ≤ 12) && d.dirBase % 65536 == 0 &&
    (s.mgmt.keysets.look (d.field 528 16)).isSome

/-- Is a key set in use by a virtual device or a shared range (R351)? -/
def State.keyUsed (s : State) (k : Nat) : Bool :=
  s.vds.any (fun e => e.2.field 528 16 == k) || s.mgmt.shared.any (fun e => e.2.keyset == k)

/-- Does a descriptor ask for a cluster, segment or way that another owns, or for no cluster (code 0x3)? A key set that another owns, or a
shared range has, counts with them (R327, R362; log entry 123). -/
def State.ownedTwice (s : State) (d : VDev) : Bool :=
  d.clusters.isEmpty || s.vds.any (fun e => (e.2.field 704 296 &&& d.field 704 296) != 0) || s.keyUsed (d.field 528 16)

/-- Do two ranges of bytes overlap? -/
def overlap (a b : Nat × Nat) : Bool := decide (a.1 < b.1 + b.2) && decide (b.1 < a.1 + a.2)

/-- Are the pooled ranges wrong (code 0x4)? -/
def State.poolsBad (s : State) (d : VDev) : Bool :=
  d.pools.any (fun r => decide (r.1 < poolWindow) || decide (2 ^ 48 < r.1 + r.2) ||
    s.vds.any (fun e => e.2.pools.any (overlap r)) || s.mgmt.shared.any (fun e => overlap r (e.2.base, e.2.gib * 2 ^ 30))) ||
    decide (2 ^ 44 < (d.pools.map (·.2)).sum)

/-- Is the ring or the save area out of place (code 0x5)? -/
def VDev.areasBad (d : VDev) : Bool :=
  !d.inSegments d.ringBase d.ringSize || (if d.wakeClass < 2 then d.dirBase != 0 else !d.inSegments d.dirBase d.dirSize)

/-- Do some ranges together hold the bytes from one address up to another? `n` bounds the ranges passed on the way. -/
def coveredBy (rs : List (Nat × Nat)) : Nat → Nat → Nat → Bool
  | 0, a, e => decide (e ≤ a)
  | n + 1, a, e =>
    if e ≤ a then true
    else match rs.find? (fun r => inside a 1 r.1 r.2) with
      | some r => coveredBy rs n (r.1 + r.2) e
      | none => false

/-- Does the eclipse area of an eclipse class lie outside the pooled ranges (code 0x6)? It may lie across ranges that adjoin. -/
def VDev.eclipseBad (d : VDev) : Bool :=
  d.wakeClass == 3 && !coveredBy d.pools d.pools.length d.eclipseArea.1 (d.eclipseArea.1 + d.eclipseArea.2)

/-- The inrush reserve of a virtual device, in quarter watts (R329). -/
def VDev.reserve (d : VDev) : Nat :=
  let n := d.clusters.length
  let q := d.segments.length
  match d.wakeClass with
  | 0 => 2 * n
  | 1 => 12 * n
  | 2 => 12 * n + q
  | _ => 12 * n + 2 * q

/-- The bytes of an eclipse area on a CXL port (R329). -/
def State.eclipseOn (s : State) (port : Nat) (d : VDev) : Nat :=
  if d.wakeClass ≠ 3 then 0
  else
    let a := d.eclipseArea
    ((s.mgmt.devices.filter (fun x => x.1 == port)).map (fun x =>
      min (a.1 + a.2) (x.2.1 + x.2.2 * 2 ^ 30) - max a.1 x.2.1)).sum

/-- Would a total of R329 for eclipse classes be exceeded (code 0x8)? -/
def State.eclipseOver (s : State) (d : VDev) : Bool :=
  let all := (s.vds.map (·.2) ++ [d]).filter (fun x => x.wakeClass == 3)
  d.wakeClass == 3 && (decide (48 < (all.map (fun x => x.segments.length)).sum) ||
    (List.range 16).any (fun p => decide (3 * 2 ^ 30 < (all.map (s.eclipseOn p)).sum)))

/-- The status of a creation: the first failure in the order of R330. -/
def State.creation (s : State) (d : VDev) : Nat :=
  if 64 ≤ s.vds.length then 1
  else if !s.fieldsOk d then 2
  else if s.ownedTwice d then 3
  else if s.poolsBad d then 4
  else if d.areasBad then 5
  else if d.eclipseBad then 6
  else if decide (1920 < (s.vds.map (·.2.reserve)).sum + d.reserve) then 7
  else if s.eclipseOver d then 8
  else 0

/-- A core given to a new owner, or taken from one: its tags go on (R237), and its `%cyc` starts at 0 (log entry 144). -/
def Core.blank (c : Core) : Core := { beamGens := c.beamGens, teamGen := c.teamGen, retired := c.retired }

/-- The line of a virtual device's wake word (R336). -/
def wakeLine (v : Nat) : Nat := v * 2 ^ 21 / 64

/-- What is left of a sealed range outside another range: the parts below and above it. -/
def Sealed.outside (x : Sealed) (r : Nat × Nat) : List Sealed :=
  if overlap (x.base, x.len) r then
    ([{ x with len := r.1 - x.base }, { x with base := r.1 + r.2, len := x.base + x.len - (r.1 + r.2) }] : List Sealed).filter (·.len != 0)
  else [x]

/-- A range given to a new owner with a key set: what a deleted shared range left there under another key pair is no plaintext to it, and
reads as memory that nothing has written (R350; log entry 146). From then on the range is its owner's, and nothing that was left there
bears on it. -/
def State.reseal (s : State) (key : Nat) (r : Nat × Nat) : State :=
  let old := s.mgmt.left.filter (fun x => overlap (x.base, x.len) r && !(s.mgmt.keysets.look key).any (fun k => k.k1 == x.k1 && k.k2 == x.k2))
  { s with mem := s.mem.filter (fun c => !(inside c.1 1 r.1 r.2 && old.any (fun x => inside c.1 1 x.base x.len)))
           mgmt := { s.mgmt with left := s.mgmt.left.flatMap (fun x => x.outside r) } }

/-- A virtual device made under a number. -/
def State.makeVd (s : State) (v : Nat) (d : VDev) : State :=
  let s := d.pools.foldl (fun s r => s.reseal (d.field 528 16) r) s
  d.cores.foldl (fun s n => s.updCore n Core.blank)
    { s with vds := s.vds.put v d, wakeBits := s.wakeBits.put (wakeLine v) (v, false) }

/-- R328: a virtual device created from its descriptor, under the lowest free number. -/
def execCreateVirtualDevice (req : MReq) (s : State) : Out :=
  s.manage req 0x01 (s.isOwner req) [] (fun s =>
    if req.body.length ≠ 128 then none
    else
      let d : VDev := { descr := BitVec.ofNat 1024 (leNat req.body) }
      match s.creation d, s.vds.free 64 with
      | 0, some v => some (some { result := v }, s.makeVd v d)
      | code, _ => some (some { status := code }, s))

/-! ### Destruction (R352) -/

/-- Is an address in what a virtual device owns? -/
def VDev.owns (d : VDev) (v a : Nat) : Bool :=
  d.inSegments a 1 || inside a 1 (v * 2 ^ 21) (2 ^ 21) || d.pools.any (fun r => inside a 1 r.1 r.2)

/-- A launch of a virtual device that is destroyed completes with KILLED. -/
def State.killed (s : State) (v l : Nat) : State :=
  let t := s.endLaunch v l 3
  match t.launch? v l with
  | some x => if x.st == .done then t else t.finishLaunch v l (x.code.getD 3)
  | none => t

/-- Every launch of a virtual device that is destroyed completes with KILLED, nodes that wait among them (log entry 164); then what is left of
its graphs ends: copies of packets in flight are refused, and the nodes that nothing dispatches any more are skipped (R283, R291, R352).
DEDUCED (log entry 174). -/
def State.killAll (s : State) (v : Nat) (d : VDev) : State :=
  let s := d.queues.foldl (fun s q => s.queueNodes v d q.1) s
  let all := (s.vds.look v).elim [] (fun d => (d.launches.filter (fun l => l.2.st != .done)).map (·.1))
  let s := all.foldl (fun s l => s.killed v l) s
  let s := (s.pcopies.filter (fun c => c.vd == v)).foldl (fun s c => s.finishCopy v c.queue c.stat c.src 4 c.node) s
  let rest := (s.vds.look v).elim [] (fun d => d.graphs.flatMap (fun g =>
    if g.2.done then [] else (g.2.nodes.filter (fun n => n.2.st == .waiting)).map (fun n => (g.1, n.1, g.2.queue, n.2))))
  rest.foldl (fun s e => s.skipNode v e.1 e.2.1 e.2.2.1 e.2.2.2) s

/-- What a virtual device has in flight, refused. -/
def State.dropFlight (s : State) (v : Nat) (d : VDev) : State :=
  { s with
    fills := s.fills.filter (fun f => !d.cores.contains f.beam.core)
    gops := s.gops.filter (fun g => g.vd != v)
    copies := s.copies.filter (fun c => c.vd != v)
    ovls := s.ovls.filter (fun l => l.vd != v)
    arrivals := s.arrivals.filter (fun a => a.vd != v)
    moves := s.moves.filter (fun m => m.vd != v)
    pcopies := s.pcopies.filter (fun c => c.vd != v)
    walks := s.walks.filter (fun w => w.vd != v)
    blocks := s.blocks.filter (fun b => b.2.1 != v)
    narrow := s.narrow.map (fun e => (e.1, e.2.filter (fun r => !d.cores.contains r.2.core)))
    threads := s.threads.map (fun t => if t.2.queue.any (fun r => r.1 == v) then (t.1, { t.2 with queue := none }) else t) }

/-- What a virtual device owned, overwritten with zeros. -/
def State.scrub (s : State) (v : Nat) (d : VDev) : State :=
  { s with
    mem := s.mem.filter (fun c => !d.owns v c.1)
    linePz := s.linePz.filter (fun g => !d.owns v (64 * g))
    wakeBits := s.wakeBits.filter (fun e => e.2.1 != v) }

/-- The management processor's part in a destruction: grants, associations, invalidations and keys. DESIGN CHOICE (log entry 188): its
associations become unbound. -/
def State.forget (s : State) (v key : Nat) : State :=
  let s : State := { s with mgmt := { s.mgmt with
    shared := s.mgmt.shared.map (fun e => (e.1, { e.2 with grants := e.2.grants.del v }))
    assocs := s.mgmt.assocs.map (fun e => if e.2.bound == .vdev v then (e.1, { e.2 with bound := .none }) else e) } }
  let s := ((s.mgmt.invals.filter (fun i => i.vd == v)).map (·.req)).foldl (fun s r => s.reply r {}) s
  { s with mgmt := { s.mgmt with
    invals := s.mgmt.invals.filter (fun i => i.vd != v)
    keysets := if s.keyUsed key then s.mgmt.keysets else s.mgmt.keysets.del key } }

/-- R352: a virtual device destroyed. -/
def execDestroyVirtualDevice (req : MReq) (s : State) : Out :=
  let v := reqVd req
  s.manage req 0x02 (s.isOwner req) [] (fun s =>
    match s.vds.look v with
    | none => none
    | some d =>
      if !bare req then none
      else
        let s := (((s.killAll v d).dropFlight v d).scrub v d).dropTranslations v
        let s := d.cores.foldl (fun s n => s.updCore n Core.blank) s
        some (some {}, { s with vds := s.vds.del v }.forget v (d.field 528 16)))

/-! ### Key sets, page tables, peers -/

/-- The code keys of a key-set payload. -/
def keysOf (bs : List Byte) (n : Nat) : List (List Byte) := (List.range n).map (fun i => (bs.drop (128 + 2592 * i)).take 2592)

/-- R351: a key set installed. DESIGN CHOICE (log entry 187): it takes the next handle never used, and 0xF answers where none is left. -/
def execInstallKeySet (req : MReq) (s : State) : Out :=
  s.manage req 0x03 (s.isOwner req) [] (fun s =>
    let n := leNat ((req.body.drop 64).take 1)
    if 4 < n || req.body.length ≠ 128 + 2592 * n || leNat ((req.body.drop 65).take 63) ≠ 0 then none
    else if 2 ^ 16 ≤ s.mgmt.nextKey then some (some refusedReply, s)
    else
      let k : KeySet := { k1 := BitVec.ofNat 256 (leNat (req.body.take 32)), k2 := BitVec.ofNat 256 (leNat ((req.body.drop 32).take 32))
                          keys := keysOf req.body n }
      some (some { result := s.mgmt.nextKey }, { s with mgmt := { s.mgmt with
        keysets := s.mgmt.keysets.put s.mgmt.nextKey k, nextKey := s.mgmt.nextKey + 1 } }))

/-- R344: PTROOT set. -/
def execSetPtroot (req : MReq) (s : State) : Out :=
  s.manage req 0x04 (s.isOwner req) [(16, 8)] (fun s =>
    let a := reqArg req 16 8
    match s.vds.look (reqVd req) with
    | none => none
    | some d =>
      if !bare req || a % 65536 ≠ 0 || (a != 0 && !d.inSegments a 65536) then none
      else some (some {}, s.updVd (reqVd req) (fun d => { d with ptroot := a })))

/-- A peer entry whose res0 bits are zero (R348). -/
def peerOk (e : Nat) : Bool := bitsOf e 112 16 == 0 && bitsOf e 56 8 == 0 && bitsOf e 40 10 == 0 && bitsOf e 1 31 == 0

/-- R348: a peer entry written. -/
def execWritePeerEntry (req : MReq) (s : State) : Out :=
  s.manage req 0x06 (s.isOwner req) [(16, 1), (32, 16)] (fun s =>
    let i := reqArg req 16 1
    let e := reqArg req 32 16
    if !bare req || !s.names req || i = 0 || 31 < i || !peerOk e then none
    else some (some {}, s.updVd (reqVd req) (fun d => { d with peers := d.peers.put i (BitVec.ofNat 128 e) })))

/-! ### Invalidations (R349) -/

/-- Does a cached translation of a virtual device overlap a range? -/
def Trans.overlaps (t : Trans) (v first len : Nat) : Bool := t.vd == v && overlap (t.page, 2 ^ t.log) (first, len)

/-- The translations of a range dropped from every core's cache, every die's unit and every overlay load that holds one. -/
def State.dropRange (s : State) (v first len : Nat) : State :=
  { s with
    cores := s.cores.map (fun c => (c.1, { c.2 with tlb := c.2.tlb.filter (fun t => !t.overlaps v first len) }))
    dtu := s.dtu.map (fun e => (e.1, e.2.filter (fun t => !t.overlaps v first len)))
    ovls := s.ovls.map (fun l => { l with trans := l.trans.filter (fun t => !t.overlaps v first len) }) }

/-- The accesses of a virtual device that may have used a translation and are still to be performed. -/
def State.unperformed (s : State) (v : Nat) : List Nat :=
  (s.gops.filter (fun g => g.vd == v && !g.settled)).map (·.id) ++ (s.copies.filter (fun c => c.vd == v)).map (·.id) ++
    (s.ovls.filter (fun l => l.vd == v)).map (·.id)

/-- An invalidation started: its response is sent when it completes. One that revokes a grant names the shared range. -/
def State.startInval (s : State) (r : MReq) (first len : Nat) (range : Option Nat) : State :=
  let v := reqVd r
  let (id, s) := s.name
  let s := s.dropRange v first len
  { s with mgmt := { s.mgmt with invals := s.mgmt.invals ++ [{
      id := id, vd := v, first := first, len := len, req := r, ops := s.unperformed v, range := range }] } }

/-- R349: the translations of a range are invalidated. -/
def execInvalidateRange (req : MReq) (s : State) : Out :=
  s.manage req 0x05 (s.isOwner req || s.isBound req) [(16, 8), (24, 8)] (fun s =>
    let first := reqArg req 16 8
    let len := reqArg req 24 8
    if !bare req || !s.names req || first % 65536 ≠ 0 || len % 65536 ≠ 0 || 2 ^ 56 ≤ first || 2 ^ 56 < first + len then none
    else some (none, if len = 0 then s.startInval req 0 (2 ^ 56) none else s.startInval req first len none))

/-- A grant gone from a shared range. -/
def State.dropGrant (s : State) (v : Nat) : Option Nat → State
  | some i => { s with mgmt := { s.mgmt with shared := s.mgmt.shared.upd i (fun x => { x with grants := x.grants.del v }) } }
  | none => s

/-- R349: every access that used a dropped translation has been performed or refused, and every walk over the range has finished;
nothing of the range stays cached, a grant that was revoked is gone (R362), and the response is sent. -/
def execInvalidateComplete (id : Nat) (s : State) : Out :=
  match s.mgmt.invals.find? (fun i => i.id == id) with
  | none => .next s
  | some i =>
    if i.ops.any s.pending || s.walks.any (fun w => w.meets i.vd i.first i.len) then .next s
    else
      let s := (s.dropRange i.vd i.first i.len).dropGrant i.vd i.range
      .next ({ s with mgmt := { s.mgmt with invals := s.mgmt.invals.filter (fun j => j.id != id) } }.reply i.req {})

/-! ### Queues (R281, R284, R337) -/

/-- Does a 64-byte descriptor keep its layout (R281)? -/
def queueOk (e : Nat) : Bool :=
  bitsOf e 400 112 == 0 && bitsOf e 266 22 == 0 && bitsOf e 64 64 == 0 && bitsOf e 0 6 == 0 &&
    decide (bitsOf e 384 8 ≤ 15) && bitsOf e 320 32 != 0 && decide (4 ≤ bitsOf e 256 8) && decide (bitsOf e 256 8 ≤ 20)

/-- Where the command processor reaches n bytes of a virtual device, in its own memory. -/
def State.ownPlace (s : State) (v va n : Nat) : Option Nat :=
  match s.cpPlace v va n { r := true } with
  | .here pa => some pa
  | _ => none

/-- Do n bytes at a virtual address lie in the anchor, page by page? -/
def State.inAnchor (s : State) (v va n : Nat) : Bool :=
  (List.range ((va + n - 1) / 65536 - va / 65536 + 1)).all (fun i =>
    match s.ownPlace v (max va (65536 * (va / 65536 + i))) 1 with
    | some pa => inside pa 1 (v * 2 ^ 21) (2 ^ 21)
    | none => false)

/-- A queue as its descriptor gives it. -/
def queueOf (desc line e : Nat) : Queue :=
  { desc := desc, base := bitsOf e 0 64, log2n := bitsOf e 256 8, ctx := bitsOf e 384 8, wdog := bitsOf e 352 32
    quant := bitsOf e 320 32, slice := bitsOf e 288 32, prio := bitsOf e 264 2, line := line, head := bitsOf e 128 64 }

/-- A request for a queue operation of some number (R357). -/
def queueReq (r : MReq) (sub : Nat) (fields : List (Nat × Nat)) (s : State) (act : State → Option (Option Reply × State)) : Out :=
  if reqArg r 16 1 ≠ sub then .next s else s.manage r 0x0A (s.isOwner r) ((16, 1) :: fields) (fun s => if bare r then act s else none)

/-- R281: a queue made from its descriptor; under the deep wake classes both descriptor and ring must lie in the anchor (R337).
DESIGN CHOICE (log entry 178): a deleted queue's index is never used again, and after 65,536 queues no more are made. -/
def execCreateQueue (req : MReq) (s : State) : Out :=
  queueReq req 0 [(24, 8)] s (fun s =>
    let v := reqVd req
    let desc := reqArg req 24 8
    match s.vds.look v, s.ownPlace v desc 64 with
    | some d, some pa =>
      let e := s.readNat pa 64
      if s.linePoisoned pa 64 || desc % 64 ≠ 0 || !(d.inSegments pa 64 || inside pa 64 (v * 2 ^ 21) (2 ^ 21)) || !queueOk e || 2 ^ 16 ≤ d.nextQ then none
      else if decide (2 ≤ d.wakeClass) && !(s.inAnchor v desc 64 && s.inAnchor v (bitsOf e 0 64) (64 * 2 ^ bitsOf e 256 8)) then
        some (some refusedReply, s)
      else
        let s := s.updVd v (fun d => { d with queues := d.queues.put d.nextQ (queueOf desc (pa / 64) e), nextQ := d.nextQ + 1 })
        let set : Bool := s.wakeBits.look (pa / 64) == some (v, true)
        some (some { result := d.nextQ }, { s with wakeBits := s.wakeBits.put (pa / 64) (v, set) }.writeBack v d.nextQ)
    | _, _ => none)

/-- The queue that a request names. -/
def State.reqQueue (s : State) (r : MReq) : Option (Nat × Queue) := (s.queue? (reqVd r) (reqArg r 32 2)).map (fun x => (reqArg r 32 2, x))

/-- R284: an idle queue unmapped and forgotten; its bytes are left as they are, and a wake write that was performed there is recognised
(R336). -/
def execDeleteQueue (req : MReq) (s : State) : Out :=
  queueReq req 1 [(32, 2)] s (fun s =>
    let v := reqVd req
    match s.reqQueue req with
    | none => none
    | some (q, x) =>
      if s.work v q then some (some refusedReply, s)
      else
        let s := match x.thread with | some t => s.updThread t (fun y => { y with queue := none }) | none => s
        let s := s.updVd v (fun d => { d with queues := d.queues.del q, turn := d.turn.filter (· != q) })
        let shared : Bool := x.line == wakeLine v || (match s.vds.look v with
          | some d => d.queues.any (fun e => e.2.line == x.line)
          | none => false)
        let s := if !shared && s.wakeBits.look x.line == some (v, true) then s.wakeVd v else s
        some (some {}, if shared then s else { s with wakeBits := s.wakeBits.del x.line }))

/-- R284: a halted queue returns to service at HEAD. -/
def execResumeQueue (req : MReq) (s : State) : Out :=
  queueReq req 2 [(32, 2)] s (fun s =>
    let v := reqVd req
    match s.reqQueue req with
    | none => none
    | some (q, x) =>
      if x.status = 0 then some (some refusedReply, s)
      else some (some {}, (s.updQueue v q (fun x => { x with status := 0, blocked := .no })).writeBack v q))

/-- R284: HEAD becomes TAIL, and STATUS running. A read of TAIL that fails is answered with 0xE (DESIGN CHOICE, log entry 158). -/
def execResetQueue (req : MReq) (s : State) : Out :=
  queueReq req 3 [(32, 2)] s (fun s =>
    let v := reqVd req
    match s.reqQueue req with
    | none => none
    | some (q, x) =>
      if s.work v q then some (some refusedReply, s)
      else match s.tail v x with
        | none => some (some { status := 0xE }, s.saw v (x.desc + 24) 8)
        | some t => some (some {}, ((s.saw v (x.desc + 24) 8).updQueue v q (fun x => { x with
            head := t, status := 0, blocked := .no })).writeBack v q))

/-- R289: a context's shape variables become zero and clear of poison. -/
def execResetContext (req : MReq) (s : State) : Out :=
  s.manage req 0x11 (s.isOwner req) [(16, 1)] (fun s =>
    let v := reqVd req
    let ctx := reqArg req 16 1
    match s.vds.look v with
    | none => none
    | some d =>
      if !bare req || 15 < ctx then none
      else if d.queues.any (fun q => q.2.ctx == ctx && s.work v q.1) then some (some refusedReply, s)
      else some (some {}, s.updVd v (fun d => { d with vars := d.vars.filter (fun e => e.1 / 32 != ctx) })))

/-- R336: a virtual device woken. -/
def execWakeRequest (req : MReq) (s : State) : Out :=
  s.manage req 0x10 (s.isOwner req || s.isBound req) [] (fun s =>
    if !bare req || !s.names req then none else some (some {}, s.wakeVd (reqVd req)))

/-! ### Rings and records (R106, R365) -/

/-- An entry of the deviation ring, or zeros where it is overwritten or not yet written, or lost to poison (R7; log entry 154). -/
def State.deviationEntry (s : State) (d : VDev) (i : Nat) : List Byte :=
  let written := s.readNat d.ringBase 8
  let n := 2 ^ (4 + d.field 588 4)
  let at_ := d.ringBase + 64 + 32 * (i % n)
  if i < written && decide (written ≤ i + n) && !s.linePoisoned at_ 32 then s.readBytes at_ 32 else List.replicate 32 0

/-- R357: entries of the deviation ring read; where WRITTEN is lost to poison the answer is 0xE (R7; log entry 154). -/
def execReadDeviationRing (req : MReq) (s : State) : Out :=
  s.manage req 0x21 (s.isOwner req) [(16, 8), (24, 2)] (fun s =>
    let first := reqArg req 16 8
    let n := reqArg req 24 2
    match s.vds.look (reqVd req) with
    | none => none
    | some d =>
      if !bare req || n = 0 || 128 < n || s.linePoisoned d.ringBase 8 then none
      else some (some { body := s.readBytes d.ringBase 8 ++ ((List.range n).map (fun i => s.deviationEntry d (first + i))).flatten }, s))

/-- R365: the record ring set, or unset. -/
def execSetRecordRing (req : MReq) (s : State) : Out :=
  s.manage req 0x0B (s.isOwner req) [(16, 8), (24, 1)] (fun s =>
    let base := reqArg req 16 8
    let log := reqArg req 24 1
    match s.vds.look (reqVd req) with
    | none => none
    | some d =>
      if !bare req || base % 32768 ≠ 0 || log < 4 || 12 < log || (base != 0 && !d.inSegments base (32768 * (1 + 2 ^ log))) then none
      else some (some {}, s.updVd (reqVd req) (fun d => { d with recBase := base, recLog := log })))

/-- A job record by SEQ: kept, or in the ring where its slot still holds that record, with no line lost to poison (R7; log entry 47). -/
def State.jobRecord (s : State) (d : VDev) (seq : Nat) : Option (List Byte) :=
  match FMap.look d.recKept seq with
  | some bs => some bs
  | none =>
    let written := s.readNat d.recBase 8
    let n := 2 ^ d.recLog
    let slot := d.recBase + 32768 * (1 + seq % n)
    let len := min (s.readNat (slot + 4) 4) 32768
    if d.recBase != 0 && !s.linePoisoned d.recBase 16 && decide (seq < written) && decide (written ≤ seq + n) && s.readNat (slot + 120) 8 == seq &&
        !s.linePoisoned slot (max len 128) then
      some (s.readBytes slot len)
    else none

/-- The records from a SEQ on that can be returned, n at most. DESIGN CHOICE (log entry 193): those before the first that is not held. -/
def State.jobRecords (s : State) (d : VDev) : Nat → Nat → List (List Byte)
  | 0, _ => []
  | n + 1, seq => match s.jobRecord d seq with | some bs => bs :: s.jobRecords d n (seq + 1) | none => []

/-- CONSUMED set. While the banks of a collapsed virtual device are off, its image in the eclipse area is set with it, which the wake copies
back (R335, R365). -/
def State.setConsumed (s : State) (d : VDev) (n : Nat) : State :=
  let a := d.recBase + 8
  let image := (d.regions.filter (fun r => inside a 8 r.1 r.2.2)).map (fun r => a - r.1 + r.2.1)
  (if 4 ≤ d.stage then image.foldl (fun s b => s.storeNat b 8 n) s else s).storeNat a 8 n

/-- R365: job records read by SEQ, and so taken: CONSUMED advances, and the kept ones are given up. -/
def execReadJobRecords (req : MReq) (s : State) : Out :=
  s.manage req 0x22 (s.isOwner req || s.isBound req) [(16, 8), (24, 1)] (fun s =>
    let first := reqArg req 16 8
    let n := reqArg req 24 1
    match s.vds.look (reqVd req) with
    | none => none
    | some d =>
      if !bare req || n = 0 || 8 < n then none
      else
        let rs := s.jobRecords d n first
        let upTo := first + rs.length
        let s' := s.updVd (reqVd req) (fun d => { d with recKept := d.recKept.filter (fun e => decide (upTo ≤ e.1)) })
        let s' := if rs.isEmpty then s
          else if d.recBase != 0 && !s.linePoisoned d.recBase 16 && decide (s.readNat (d.recBase + 8) 8 < upTo) then s'.setConsumed d upTo else s'
        some (some { body := rs.flatten }, s'))

/-! ### Shared ranges (R362) -/

/-- A request for a shared-range operation of some number (R357). -/
def sharedReq (r : MReq) (sub : Nat) (fields : List (Nat × Nat)) (s : State) (act : State → Option (Option Reply × State)) : Out :=
  if reqArg r 16 1 ≠ sub then .next s else s.manage r 0x0C (s.isOwner r) ((16, 1) :: fields) (fun s => if bare r then act s else none)

/-- R362: a shared range made, in no virtual device's pooled ranges and with a key set of its own (log entry 123). DESIGN CHOICE (log entry
190): 0xF answers where there are 16. -/
def execCreateSharedRange (req : MReq) (s : State) : Out :=
  sharedReq req 0 [(24, 8), (32, 4), (36, 2)] s (fun s =>
    let base := reqArg req 24 8
    let gib := reqArg req 32 4
    let key := reqArg req 36 2
    let r := (base, gib * 2 ^ 30)
    if base % 2 ^ 30 ≠ 0 || base < poolWindow || gib = 0 || 2 ^ 48 < base + r.2 || (s.mgmt.keysets.look key).isNone || s.keyUsed key ||
        s.vds.any (fun e => e.2.pools.any (overlap r)) || s.mgmt.shared.any (fun e => overlap r (e.2.base, e.2.gib * 2 ^ 30)) then none
    else match s.mgmt.shared.free 16 with
      | none => some (some refusedReply, s)
      | some i =>
        let s := s.reseal key r
        some (some { result := i }, { s with mgmt := { s.mgmt with
          shared := s.mgmt.shared.put i { base := base, gib := gib, keyset := key, grants := [] } } }))

/-- R362: a virtual device given access to a shared range; a revocation of an earlier grant that is still to complete takes the new one
away no more (log entry 83). -/
def execGrantSharedRange (req : MReq) (s : State) : Out :=
  sharedReq req 1 [(17, 1), (18, 1)] s (fun s =>
    let i := reqArg req 17 1
    let w := reqArg req 18 1
    if !s.names req || 1 < w then none
    else match s.mgmt.shared.look i with
      | none => none
      | some x => some (some {}, { s with mgmt := { s.mgmt with
          shared := s.mgmt.shared.put i { x with grants := x.grants.put (reqVd req) (w == 1) }
          invals := s.mgmt.invals.map (fun j => if j.vd == reqVd req && j.range == some i then { j with range := none } else j) } }))

/-- R362: a grant withdrawn; the request completes as an invalidation, and the grant goes with it. -/
def execRevokeSharedRange (req : MReq) (s : State) : Out :=
  sharedReq req 2 [(17, 1)] s (fun s =>
    let i := reqArg req 17 1
    match s.mgmt.shared.look i with
    | none => none
    | some x =>
      if (x.grants.look (reqVd req)).isNone then none
      else some (none, s.startInval req 0 (2 ^ 56) (some i)))

/-- R362: a shared range with no grants removed; its bytes stay under its key pair (R350). -/
def execDeleteSharedRange (req : MReq) (s : State) : Out :=
  sharedReq req 3 [(17, 1)] s (fun s =>
    let i := reqArg req 17 1
    match s.mgmt.shared.look i with
    | none => none
    | some x =>
      if !x.grants.isEmpty then some (some refusedReply, s)
      else
        let k : KeySet := (s.mgmt.keysets.look x.keyset).getD { k1 := 0, k2 := 0, keys := [] }
        some (some {}, { s with mgmt := { s.mgmt with
          shared := s.mgmt.shared.del i
          left := s.mgmt.left ++ [{ base := x.base, len := x.gib * 2 ^ 30, k1 := k.k1, k2 := k.k2 }] } }))

end Sys2Proof.Machine
end

