-- ==== Sys2Proof/Machine/Loader.lean ====
section
/-!
DEFINITION. Ploviz containers (R45 to R50), their loading and unloading (R303, R361), and the packets of Ultra Ethernet associations
(R354).
-/
namespace Sys2Proof.Machine

/-! ### The layout of a container (R45 to R48) -/

/-- n bytes of a container from an offset. -/
def part (bs : List Byte) (off n : Nat) : List Byte := (bs.drop off).take n

/-- A number in a container. -/
def field (bs : List Byte) (off n : Nat) : Nat := leNat (part bs off n)

/-- A section: type, id, offset, length. -/
structure Section where
  type : Nat
  id   : Nat
  off  : Nat
  len  : Nat

/-- Is a header one of R45, for a container of these bytes? That a breach of R45's own limits rejects is the model's choice (log
entry 76). -/
def headerOk (bs : List Byte) : Bool :=
  decide (64 ≤ bs.length) && field bs 0 4 == 0x5A564C50 && field bs 4 2 == 1 && field bs 6 2 == 0 && field bs 8 4 == bs.length &&
    decide (1 ≤ field bs 12 4) && decide (field bs 12 4 ≤ 1024) && field bs 16 4 % 16 == 0 && field bs 20 4 == 0x20D0 &&
    field bs 24 40 == 0 && decide (field bs 16 4 + 16 * field bs 12 4 ≤ bs.length)

/-- The section table (R46). -/
def sections (bs : List Byte) : List Section :=
  (List.range (field bs 12 4)).map (fun i =>
    let e := field bs 16 4 + 16 * i
    { type := field bs e 2, id := field bs (e + 2) 2, off := field bs (e + 4) 4, len := field bs (e + 8) 4 })

/-- Are the res0 bits of the section table zero? -/
def tableOk (bs : List Byte) : Bool := (List.range (field bs 12 4)).all (fun i => field bs (field bs 16 4 + 16 * i + 12) 4 == 0)

/-- Does a section overlap none of those after it? An empty section strictly inside another counts as an overlap (log entry 145). -/
def apart : List Section → Bool
  | [] => true
  | x :: l => l.all (fun y => !overlap (x.off, x.len) (y.off, y.len)) && apart l

/-- A jump-table entry or responder word of R47. -/
def targetOk (w : Nat) : Bool := bitsOf w 13 11 == 0 && decide (w % 2 ^ 13 ≤ 5460)

/-- The words of a jump table or responder list. -/
def targets (bs : List Byte) (off n : Nat) : List Nat := (List.range n).map (fun i => field bs (off + 4 * i) 4)

/-- Is the target of a jump-table entry an `lpad` that carries the table's id (R50)? It is looked for in the overlays of the same
container (log entry 127). -/
def landsOn (bs : List Byte) (ss : List Section) (id w : Nat) : Bool :=
  ss.any (fun x => x.type == 1 && x.id == w / 2 ^ 24 && decide (12 * (w % 2 ^ 13) + 12 ≤ x.len) &&
    (match decodeWord (wordOfBytes (part bs (x.off + 12 * (w % 2 ^ 13)) 12)) with
     | some (.lpad h) => h.imm.toNat % 2 ^ 10 == id
     | _ => false))

/-- A name: 1 to 31 ASCII characters, zero-padded (R44, R48). -/
def nameOk (cs : List Byte) : Bool :=
  let name := cs.takeWhile (· != 0)
  !name.isEmpty && decide (name.length ≤ 31) && name.all (fun c => decide (c.toNat < 128)) && (cs.drop name.length).all (· == 0)

/-- Is a kernel descriptor within the limits of R44 and R48? -/
def kernelOk (bs : List Byte) (x : Section) : Bool :=
  let f := field bs x.off 64
  let cap := bitsOf f 320 16
  let count := bitsOf f 312 8
  decide (64 ≤ x.len) && bitsOf f 368 144 == 0 && bitsOf f 354 6 == 0 && bitsOf f 285 3 == 0 && decide (bitsOf f 360 8 ≤ 16) &&
    decide (x.len = 64 + 4 * bitsOf f 360 8) && decide (bitsOf f 336 16 ≤ 2048) &&
    (if cap = 0 then count == 0 else decide (16 ≤ cap) && decide (cap ≤ 512) && cap % 16 == 0 && decide (1 ≤ count) &&
      decide (count ≤ 16) && decide (cap * count ≤ 1024)) &&
    decide (8 ≤ bitsOf f 304 8) && decide (bitsOf f 304 8 ≤ 64) && bitsOf f 304 8 % 8 == 0 &&
    decide (8 ≤ bitsOf f 288 16) && decide (bitsOf f 288 16 ≤ 256) && bitsOf f 288 16 % 8 == 0 &&
    decide (bitsOf f 272 13 ≤ 5460) && decide (bitsOf f 256 16 ≤ 255) && nameOk (part bs x.off 32) &&
    (targets bs (x.off + 64) (bitsOf f 360 8)).all targetOk

/-- Is a section within the limits of its type? -/
def sectionOk (bs : List Byte) (ss : List Section) (x : Section) : Bool :=
  x.off % 64 == 0 && decide (x.off + x.len ≤ bs.length) &&
    match x.type with
    | 1 => decide (x.id ≤ 255) && x.len % 12 == 0 && decide (x.len ≤ 65532)
    | 2 => decide (x.id ≤ 1023) && x.len % 4 == 0 && decide (1 ≤ x.len / 4) && decide (x.len / 4 ≤ 256) &&
        (targets bs x.off (x.len / 4)).all (fun w => targetOk w && landsOn bs ss x.id w)
    | 3 => kernelOk bs x
    | 4 => x.id == 0
    | 5 => x.id == 0 && decide (x.len = 4736)
    | _ => false

/-- The ids of the sections of a type. -/
def idsOf (ss : List Section) (type : Nat) : List Nat := (ss.filter (fun x => x.type == type)).map (·.id)

/-- Are no two of a list equal? -/
def distinct : List Nat → Bool
  | [] => true
  | x :: l => !l.contains x && distinct l

/-- Is the last section the one signature, behind all others, and does it verify under a code key (R49, R361)? DESIGN CHOICE (log entry 167):
last is both by place and in the section table, and the table, or bytes behind the signature, may lie outside the bytes that it covers. -/
def signatureOk (keys : List (List Byte)) (bs : List Byte) (ss : List Section) : Bool :=
  match ss.getLast? with
  | some x => x.type == 5 && ss.dropLast.all (fun y => y.type != 5 && decide (y.off + y.len ≤ x.off)) &&
      keys.any (fun k => signedBy k (bs.take x.off) (part bs x.off x.len))
  | none => false

/-- Does a container pass R50? The id of a kernel descriptor is neither checked nor used: handles follow the order of the section
table. That other ids which occur twice reject is the model's choice too (log entry 76). -/
def containerOk (keys : List (List Byte)) (bs : List Byte) : Bool :=
  let ss := sections bs
  headerOk bs && tableOk bs && apart ss && ss.all (sectionOk bs ss) && decide ((idsOf ss 4).length ≤ 1) &&
    distinct (idsOf ss 1) && distinct (idsOf ss 2) && signatureOk keys bs ss

/-! ### Loading (R258, R303, R361) -/

/-- The declarations that a kernel descriptor makes (R48). -/
def declFrom (bs : List Byte) (x : Section) : Decl :=
  let f := field bs x.off 64
  { vregs := bitsOf f 288 16, cregs := bitsOf f 304 8, mcap := bitsOf f 320 16, mcount := bitsOf f 312 8
    spad := 256 * bitsOf f 336 16, noinit := bitsOf f 353 1 == 1, idem := bitsOf f 352 1 == 1
    resps := (targets bs (x.off + 64) (bitsOf f 360 8)).map (BitVec.ofNat 32) }

/-- The kernel of a descriptor. -/
def kernelFrom (bs : List Byte) (cont : Nat) (x : Section) : Kernel :=
  { cont := cont, decl := declFrom bs x, entry := codeAddr (bitsOf (field bs x.off 64) 256 16) (bitsOf (field bs x.off 64) 272 13) }

/-- The bytes that the overlays of a virtual device take. -/
def VDev.overlayBytes (d : VDev) : Nat := (d.overlays.map (fun e => e.2.size)).sum

/-- The key set of a virtual device. -/
def State.codeKeys (s : State) (d : VDev) : List (List Byte) := (s.mgmt.keysets.look (d.field 528 16)).elim [] (·.keys)

/-- Is a run of kernel handles free? The highest number, which names no kernel in a record (R364), is no handle. -/
def VDev.handlesFree (d : VDev) (h n : Nat) : Bool :=
  decide (h + n ≤ 65535) && (List.range n).all (fun i => (d.kernels.look (h + i)).isNone)

/-- The next free handles for some kernels: those from the next number on, and where they are used up, the lowest run that is free (R303).
DESIGN CHOICE (log entry 175): the handles of one container stand side by side, and where no run is left the load is answered 0x3. -/
def VDev.handles (d : VDev) (n : Nat) : Option Nat :=
  if d.handlesFree d.nextK n then some d.nextK else (List.range 65535).find? (fun h => d.handlesFree h n)

/-- The status of a load, in the order of R303. -/
def State.loadStatus (s : State) (d : VDev) (bs : List Byte) : Nat :=
  let ss := sections bs
  if !containerOk (s.codeKeys d) bs then 1
  else if (idsOf ss 1).any (fun i => (d.overlays.look i).isSome) || (idsOf ss 2).any (fun i => (d.jtabs.look i).isSome) then 2
  else if !d.quotaHolds (d.overlayBytes + ((ss.filter (fun x => x.type == 1)).map (·.len)).sum) || (d.handles (idsOf ss 3).length).isNone then 3
  else 0

/-- A virtual device with a container's overlays, tables and kernels, these under the handles from `h` on. -/
def VDev.load (d : VDev) (va h : Nat) (bs : List Byte) : VDev :=
  let ss := sections bs
  let ks := ss.filter (fun x => x.type == 3)
  { d with
    conts := d.conts + 1
    overlays := putAll d.overlays ((ss.filter (fun x => x.type == 1)).map (fun x =>
      (x.id, { cont := d.conts, image := va + x.off, count := x.len / 12, digest := Config.sha3_512 (part bs x.off x.len) })))
    jtabs := putAll d.jtabs ((ss.filter (fun x => x.type == 2)).map (fun x =>
      (x.id, { cont := d.conts, entries := (targets bs x.off (x.len / 4)).map (BitVec.ofNat 32) })))
    kernels := putAll d.kernels (ks.mapIdx (fun i x => (h + i, kernelFrom bs d.conts x)))
    nextK := h + ks.length }

/-- The data image of a container, if it has one. -/
def dataOf (bs : List Byte) : Option (List Byte) :=
  ((sections bs).find? (fun x => x.type == 4)).map (fun x => part bs x.off x.len)

/-- A data image placed at a virtual address, or none where its tables do not let it be (R46). -/
def State.placeData (s : State) (v va : Nat) (bs : List Byte) : Option State :=
  (lineParts va bs.length).foldl (fun acc p => acc.bind (fun s => s.cpWrite v p.1 ((bs.drop (p.1 - va)).take p.2))) (some s)

/-- Do the ports hold the load of a container (R392): the read of its bytes, or the write of its data image? -/
def State.loadHeld (s : State) (req : MReq) : Bool :=
  let v := reqVd req
  let va := reqArg req 16 8
  s.cpHeld v va (reqArg req 24 4) { r := true } ||
    (s.mgmt.ports.any (fun e => e.2 == .calibrating) && match (s.cpRead v va (reqArg req 24 4)).1 with
      | .ok bs => (dataOf bs).any (fun b => s.cpHeld v (reqArg req 32 8) b.length { w := true })
      | .error _ => false)

/-- A request put among those that ports hold, or taken from among them. -/
def State.holdRequest (s : State) (req : MReq) (held : Bool) : State :=
  let l := s.mgmt.held
  { s with mgmt := { s.mgmt with held := if !held then l.filter (· != req) else if l.contains req then l else l ++ [req] } }

/-- R303: a container verified and loaded whole, or not at all. While a port holds an access of it the request waits (R392). What its bytes
are found to have lost stays entered, whatever the answer (R383; log entry 118). -/
def execLoadContainer (req : MReq) (s : State) : Out :=
  (s.holdRequest req false).manage req 0x08 (s.isOwner req) [(16, 8), (24, 4), (32, 8)] (fun t =>
    let v := reqVd req
    let va := reqArg req 16 8
    let data := reqArg req 32 8
    match t.vds.look v with
    | none => none
    | some d =>
      if !bare req || va % 64 ≠ 0 || data % 65536 ≠ 0 then none
      else if t.loadHeld req then some (none, s.holdRequest req true)
      else match t.cpRead v va (reqArg req 24 4) with
        | (.error _, s) => some (some { status := 0xE }, s)
        | (.ok bs, s) =>
          match s.loadStatus d bs with
          | 0 =>
            let image := dataOf bs
            let placed : Option State := match image with
              | some b => if data = 0 then none else s.placeData v data b
              | none => if data = 0 then some s else none
            match placed with
            | some s =>
              let n := (idsOf (sections bs) 3).length
              let h := (d.handles n).getD 0
              some (some { result := h + 2 ^ 16 * n }, s.updVd v (fun d => d.load va h bs))
            | none => some (some { status := 0xE }, s)
          | code => some (some { status := code }, s))

/-- Does a launch that is not Done use a kernel of a container, or a graph with a node not completed name one (R303, code 0x4)? -/
def VDev.usesCont (d : VDev) (cont : Nat) : Bool :=
  let mine (h : Nat) : Bool := (d.kernels.look h).any (fun k => k.cont == cont)
  d.launches.any (fun l => l.2.st != .done && mine (bitsOf l.2.packet.toNat 16 16)) ||
    d.graphs.any (fun g => !g.2.done && g.2.nodes.any (fun n => n.2.code?.isNone) &&
      g.2.nodes.any (fun n => n.2.packet.toNat % 16 == 1 && mine (bitsOf n.2.packet.toNat 16 16)))

/-- A virtual device without a container. -/
def VDev.unload (d : VDev) (cont : Nat) : VDev :=
  { d with
    overlays := d.overlays.filter (fun e => e.2.cont != cont)
    jtabs := d.jtabs.filter (fun e => e.2.cont != cont)
    kernels := d.kernels.filter (fun e => e.2.cont != cont) }

/-- Is a handle the first of its container? -/
def VDev.firstOf (d : VDev) (h : Nat) : Option Nat :=
  (d.kernels.look h).bind (fun k => if d.kernels.any (fun e => e.2.cont == k.cont && decide (e.1 < h)) then none else some k.cont)

/-- R303: a container unloaded and its ids released. -/
def execUnloadContainer (req : MReq) (s : State) : Out :=
  s.manage req 0x09 (s.isOwner req) [(16, 2)] (fun s =>
    let v := reqVd req
    match (s.vds.look v).bind (fun d => (d.firstOf (reqArg req 16 2)).map (fun c => (d, c))) with
    | none => none
    | some (d, c) =>
      if !bare req then none
      else if d.usesCont c then some (some { status := 4 }, s)
      else some (some {}, s.updVd v (fun d => d.unload c)))

/-! ### Association packets (R354, R355) -/

/-- The event of a management request: none for an operation that does not exist. -/
def requestEvent (r : MReq) : Option Instr :=
  match reqOp r, reqArg r 16 1 with
  | 0x01, _ => some (.createVirtualDevice r)
  | 0x02, _ => some (.destroyVirtualDevice r)
  | 0x03, _ => some (.installKeySet r)
  | 0x04, _ => some (.setPtroot r)
  | 0x05, _ => some (.invalidateRange r)
  | 0x06, _ => some (.writePeerEntry r)
  | 0x07, _ => some (.bindAssociation r)
  | 0x08, _ => some (.loadContainer r)
  | 0x09, _ => some (.unloadContainer r)
  | 0x0A, 0 => some (.createQueue r)
  | 0x0A, 1 => some (.deleteQueue r)
  | 0x0A, 2 => some (.resumeQueue r)
  | 0x0A, 3 => some (.resetQueue r)
  | 0x0B, _ => some (.setRecordRing r)
  | 0x0C, 0 => some (.createSharedRange r)
  | 0x0C, 1 => some (.grantSharedRange r)
  | 0x0C, 2 => some (.revokeSharedRange r)
  | 0x0C, 3 => some (.deleteSharedRange r)
  | 0x0D, _ => some (.updateFirmware r)
  | 0x0E, _ =>
    match reqArg r 17 1 with
    | 0 => some (.setAuthorisedDigest r)
    | 1 => some (.clearAuthorisedDigest r)
    | _ => none
  | 0x0F, _ => some (.handOverOwnership r)
  | 0x10, _ => some (.wakeRequest r)
  | 0x11, _ => some (.resetContext r)
  | 0x20, _ => some (.readPackageStatus r)
  | 0x21, _ => some (.readDeviationRing r)
  | 0x22, _ => some (.readJobRecords r)
  | 0x30, _ => some (.claimOwnership r)
  | 0x31, _ => some (.acceptHandover r)
  | _, _ => none

/-- Operations of which only the owner may ask for one that does not exist (R356). -/
def ownersOp (op : Nat) : Bool := op == 0x0A || op == 0x0C || op == 0x0E

/-- A management request received (R355): it is acted on next, or answered at once where its operation does not exist. -/
def State.request (s : State) (r : MReq) : State :=
  match requestEvent r with
  | some i => { s with agenda := s.agenda ++ [.event i] }
  | none => s.reply r { status := if ownersOp (reqOp r) && !s.isOwner r then 0xF else 0xE }

/-- A packet put among those that ports hold, or taken from among them. -/
def State.holdPacket (s : State) (pkt : Packet) (held : Bool) : State :=
  let l := s.mgmt.packets
  { s with mgmt := { s.mgmt with packets := if !held then l.filter (· != pkt) else if l.contains pkt then l else l ++ [pkt] } }

/-- Do the ports hold what a packet does at the virtual device that its association is bound to (R392)? -/
def State.packetHeld (s : State) (pkt : Packet) (b : Binding) : Bool :=
  match pkt.payload, b with
  | .remote r, .vdev v => s.remoteHeld v r
  | _, _ => false

/-- A packet that has been taken acted on, where its association is bound. -/
def State.actOn (s : State) (pkt : Packet) (b : Binding) : State :=
  match pkt.payload, b with
  | .mgmt header body, b => if b.managed then s.request { assoc := pkt.assoc, header := header, body := body } else s
  | .remote r, .vdev v => s.remote v r
  | _, _ => s

/-- R354: a packet of an association checked, dropped, or taken and acted on where its association is bound. While a CXL port holds an
access of it, a packet that has been taken waits (R392; log entry 165). -/
def execAssociationPacketReceive (pkt : Packet) (s : State) : Out :=
  match s.assoc? pkt.assoc with
  | none => .next (s.holdPacket pkt false)
  | some a =>
    let held := s.packetHeld pkt a.bound
    if s.mgmt.packets.contains pkt then
      if held then .next s else .next ((s.holdPacket pkt false).actOn pkt a.bound)
    else if 8 ≤ pkt.port || s.portSt (16 + pkt.port) != .secure then .next s
    else if !pkt.tagOk || !a.fresh pkt.number then .next (s.updAssoc pkt.assoc (fun a => { a with dropped := a.dropped + 1 }))
    else
      let s := s.updAssoc pkt.assoc (fun a => a.take pkt.number)
      if held then .next (s.holdPacket pkt true) else .next (s.actOn pkt a.bound)

end Sys2Proof.Machine
end

