-- ==== Sys2Proof/Machine/Poison.lean ====
section
/-!
DEFINITION. Uncorrectable errors found in the granules of R383.
-/
namespace Sys2Proof.Machine

/-- The first bit of element i in an image as one number, and its bits (R86, R88, R135). -/
def elemBits (t : Ty) (i : Nat) : Nat × Nat :=
  if t.isMx then (8 * t.blockBytes * (i / 32) + t.mxElem.width * (i % 32), t.mxElem.width)
  else if t.isLum then (8 * t.blockBytes * (i / 16) + 16 + (t.lumBits + 1) * (i % 16), t.lumBits + 1)
  else (t.width * i, t.width)

/-- A matrix register with an element's code zero, and its mark set. -/
def MReg.lose (r : MReg) (i : Nat) : MReg :=
  let (lo, n) := elemBits r.tag i
  let x := leNat r.img
  { r with img := leBytes r.img.length (x - bitsOf x lo n * 2 ^ lo), pz := true }

/-- The entry and the count of an event (R379, R383). -/
def State.noteEvent (s : State) (v sub lane launch core addr : Nat) : State :=
  (s.pushErr v (errEntry 0x01 sub lane 1 launch core 0 addr)).updVd v (fun d => { d with poisoned := d.poisoned + 1 })

/-- An error found in a register or predicate of a beam. -/
def State.beamEvent (s : State) (core slot lane : Nat) (f : Beam → Beam) : State :=
  match s.beam? core slot with
  | none => s
  | some b =>
    match s.teamOf core b with
    | none => s
    | some t => (s.setBeam core slot (f b)).noteEvent t.vd 0 lane (s.launchLow t.vd t.launch) core 0

/-- The virtual device that owns a line. -/
def State.ownerOfLine (s : State) (line : Nat) : Option Nat := (s.vds.find? (fun e => e.2.owns e.1 (64 * line))).map (·.1)

/-- The beam of a slot of a core, if one is named, has detected an error by what it issues next (R387). -/
def State.foundBy (s : State) (core : Nat) : Option Nat → State
  | some slot => s.updBeam core slot (fun b => { b with found := true })
  | none => s

/-- An error found in an instruction-store word: it is fetched again before it issues. SUB names no such place, and is a free value. -/
def State.storeEvent (s : State) (core slot index : Nat) : State :=
  match (s.core core).slots.look slot, s.ownerOfCore core with
  | some x, some (v, _) =>
    match x.overlay with
    | none => s
    | some _ =>
      let (k, s) := s.take
      (s.noteEvent v ((Config.freeWord k).toNat % 256) 0 nobody core 0).updCore core (fun c =>
        { c with slots := c.slots.put slot { x with stale := x.stale ++ [index] } })
  | _, _ => s

/-- An uncorrectable error found in a granule (R383): its bits in error become zero, its mark is set, and the event is entered and
counted once. -/
def State.event (s : State) : Granule → State
  | .v core slot reg lane good =>
    s.beamEvent core slot lane (fun b => b.write { v := [(lane + 32 * reg, { val := (b.vreg lane reg).val &&& good, pz := true })] })
  | .c core slot reg good =>
    s.beamEvent core slot 0 (fun b => b.write { c := [(b.ckey reg, { val := (b.creg reg).val &&& good, pz := true })] })
  | .m core slot reg lane elem =>
    s.beamEvent core slot lane (fun b => b.write { m := [(lane + 32 * reg, (b.mreg lane reg).lose elem)] })
  | .p core slot n lane => if 7 ≤ n then s else s.beamEvent core slot lane (fun b => b.write { p := [(lane + 32 * n, { pz := true })] })
  | .q core slot n => if 7 ≤ n then s else s.beamEvent core slot 0 (fun b => b.write { q := [(n, { pz := true })] })
  | .spad core resp word good =>
    match (s.core core).teamIn resp with
    | none => s
    | some t =>
      (s.updTeam core resp (fun t =>
        t.store (8 * word) (leBytes 8 ((BitVec.ofNat 64 (leNat (t.load (8 * word) 8))) &&& good).toNat) true)).noteEvent
          t.vd 1 0 (s.launchLow t.vd t.launch) core 0
  | .line line cached =>
    match s.ownerOfLine line with
    | none =>
      match s.readersOf line with
      | [] => s
      | vs => vs.foldl (fun s v => s.noteLine v line (if cached then 2 else 4)) (s.loseLine line)
    | some v => s.lineEvent v line (if cached then 2 else if line < 2 ^ 31 then 3 else 4)
  | .store core slot index by_ => (s.storeEvent core slot index).foundBy core by_
  | .dir core index by_ =>
    match s.ownerOfCore core with
    | none => s
    | some (v, _) =>
      ((if ((s.core core).entry index).state = 1 then s.setEntry core index {} else s).noteEvent v 5 0 nobody core 0).foundBy core by_

end Sys2Proof.Machine
end

