-- ==== Sys2Proof/Machine/Dispatch.lean ====
section
/-!
DEFINITION. The meaning of every row of the opcode table: one arm per constructor of `Instr`, each one call of its meaning.
-/
namespace Sys2Proof.Machine

def exec (i : Instr) (s : State) : Host.Outcome State Fault Refusal :=
  match i with
  | .add h m => Sys2Proof.Machine.execAdd h m s
  | .sub h m => Sys2Proof.Machine.execSub h m s
  | .addc h m => Sys2Proof.Machine.execAddc h m s
  | .mul h m => Sys2Proof.Machine.execMul h m s
  | .mulhi h m => Sys2Proof.Machine.execMulhi h m s
  | .mad h m => Sys2Proof.Machine.execMad h m s
  | .div h m => Sys2Proof.Machine.execDiv h m s
  | .rem h m => Sys2Proof.Machine.execRem h m s
  | .min h m => Sys2Proof.Machine.execMin h m s
  | .max h m => Sys2Proof.Machine.execMax h m s
  | .abs h m => Sys2Proof.Machine.execAbs h m s
  | .neg h m => Sys2Proof.Machine.execNeg h m s
  | .and h m => Sys2Proof.Machine.execAnd h m s
  | .or h m => Sys2Proof.Machine.execOr h m s
  | .xor h m => Sys2Proof.Machine.execXor h m s
  | .andn h m => Sys2Proof.Machine.execAndn h m s
  | .shl h m => Sys2Proof.Machine.execShl h m s
  | .shr h m => Sys2Proof.Machine.execShr h m s
  | .sar h m => Sys2Proof.Machine.execSar h m s
  | .rot h m => Sys2Proof.Machine.execRot h m s
  | .clz h m => Sys2Proof.Machine.execClz h m s
  | .ctz h m => Sys2Proof.Machine.execCtz h m s
  | .popc h m => Sys2Proof.Machine.execPopc h m s
  | .brev h m => Sys2Proof.Machine.execBrev h m s
  | .bfx h m => Sys2Proof.Machine.execBfx h m s
  | .bfi h m => Sys2Proof.Machine.execBfi h m s
  | .lea h m => Sys2Proof.Machine.execLea h m s
  | .sel h m => Sys2Proof.Machine.execSel h m s
  | .cmp h m => Sys2Proof.Machine.execCmp h m s
  | .mov h m => Sys2Proof.Machine.execMov h m s
  | .movi h m => Sys2Proof.Machine.execMovi h m s
  | .movh h m => Sys2Proof.Machine.execMovh h m s
  | .ext h m => Sys2Proof.Machine.execExt h m s
  | .fadd h m => Sys2Proof.Machine.execFadd h m s
  | .fsub h m => Sys2Proof.Machine.execFsub h m s
  | .fmul h m => Sys2Proof.Machine.execFmul h m s
  | .fma h m => Sys2Proof.Machine.execFma h m s
  | .fscale h m => Sys2Proof.Machine.execFscale h m s
  | .frint h m => Sys2Proof.Machine.execFrint h m s
  | .fmin h m => Sys2Proof.Machine.execFmin h m s
  | .fmax h m => Sys2Proof.Machine.execFmax h m s
  | .fminm h m => Sys2Proof.Machine.execFminm h m s
  | .fmaxm h m => Sys2Proof.Machine.execFmaxm h m s
  | .fcmp h m => Sys2Proof.Machine.execFcmp h m s
  | .fclass h m => Sys2Proof.Machine.execFclass h m s
  | .fdiv h m => Sys2Proof.Machine.execFdiv h m s
  | .frcp h m => Sys2Proof.Machine.execFrcp h m s
  | .fsqrt h m => Sys2Proof.Machine.execFsqrt h m s
  | .frsq h m => Sys2Proof.Machine.execFrsq h m s
  | .fexp2 h m => Sys2Proof.Machine.execFexp2 h m s
  | .flog2 h m => Sys2Proof.Machine.execFlog2 h m s
  | .fsin h m => Sys2Proof.Machine.execFsin h m s
  | .fcos h m => Sys2Proof.Machine.execFcos h m s
  | .ftanh h m => Sys2Proof.Machine.execFtanh h m s
  | .cvt h m => Sys2Proof.Machine.execCvt h m s
  | .cvtq h m => Sys2Proof.Machine.execCvtq h m s
  | .cvtd h m => Sys2Proof.Machine.execCvtd h m s
  | .dot2 h m => Sys2Proof.Machine.execDot2 h m s
  | .dot4 h m => Sys2Proof.Machine.execDot4 h m s
  | .dot8 h m => Sys2Proof.Machine.execDot8 h m s
  | .packb h m => Sys2Proof.Machine.execPackb h m s
  | .unpackb h m => Sys2Proof.Machine.execUnpackb h m s
  | .mshape h m => Sys2Proof.Machine.execMshape h m s
  | .mzero h m => Sys2Proof.Machine.execMzero h m s
  | .mfill h m => Sys2Proof.Machine.execMfill h m s
  | .mld h m => Sys2Proof.Machine.execMld h m s
  | .mst h m => Sys2Proof.Machine.execMst h m s
  | .mget h m => Sys2Proof.Machine.execMget h m s
  | .mset h m => Sys2Proof.Machine.execMset h m s
  | .mmov h m => Sys2Proof.Machine.execMmov h m s
  | .mtrn h m => Sys2Proof.Machine.execMtrn h m s
  | .mcvt h m => Sys2Proof.Machine.execMcvt h m s
  | .mma h m => Sys2Proof.Machine.execMma h m s
  | .mmasp h m => Sys2Proof.Machine.execMmasp h m s
  | .madd h m => Sys2Proof.Machine.execMadd h m s
  | .mhad h m => Sys2Proof.Machine.execMhad h m s
  | .mred h m => Sys2Proof.Machine.execMred h m s
  | .minv h m => Sys2Proof.Machine.execMinv h m s
  | .mlu h m => Sys2Proof.Machine.execMlu h m s
  | .mchol h m => Sys2Proof.Machine.execMchol h m s
  | .msolve h m => Sys2Proof.Machine.execMsolve h m s
  | .mexp h m => Sys2Proof.Machine.execMexp h m s
  | .fmt h => Sys2Proof.Machine.execFmt h s
  | .prismComplete id misses => Sys2Proof.Machine.execPrismComplete id misses s
  | .shfl h m => Sys2Proof.Machine.execShfl h m s
  | .vote h m => Sys2Proof.Machine.execVote h m s
  | .redLane h m => Sys2Proof.Machine.execRedLane h m s
  | .scan h m => Sys2Proof.Machine.execScan h m s
  | .part h m => Sys2Proof.Machine.execPart h m s
  | .lead h m => Sys2Proof.Machine.execLead h m s
  | .rebal h m => Sys2Proof.Machine.execRebal h m s
  | .topk h m => Sys2Proof.Machine.execTopk h m s
  | .ld h m => Sys2Proof.Machine.execLd h m s
  | .st h m => Sys2Proof.Machine.execSt h m s
  | .lds h m => Sys2Proof.Machine.execLds h m s
  | .sts h m => Sys2Proof.Machine.execSts h m s
  | .atoms h m => Sys2Proof.Machine.execAtoms h m s
  | .reds h m => Sys2Proof.Machine.execReds h m s
  | .copy h m => Sys2Proof.Machine.execCopy h m s
  | .bcopy h m => Sys2Proof.Machine.execBcopy h m s
  | .ncopy h m => Sys2Proof.Machine.execNcopy h m s
  | .lda h m => Sys2Proof.Machine.execLda h m s
  | .str h m => Sys2Proof.Machine.execStr h m s
  | .svst h => Sys2Proof.Machine.execSvst h s
  | .atom h m => Sys2Proof.Machine.execAtom h m s
  | .redGlobal h m => Sys2Proof.Machine.execRedGlobal h m s
  | .fence h m => Sys2Proof.Machine.execFence h m s
  | .wait h => Sys2Proof.Machine.execWait h s
  | .arrive h => Sys2Proof.Machine.execArrive h s
  | .sleep h => Sys2Proof.Machine.execSleep h s
  | .bar h => Sys2Proof.Machine.execBar h s
  | .cbar h => Sys2Proof.Machine.execCbar h s
  | .trigger h => Sys2Proof.Machine.execTrigger h s
  | .spawn h => Sys2Proof.Machine.execSpawn h s
  | .spawnTry h => Sys2Proof.Machine.execSpawnTry h s
  | .dirput h => Sys2Proof.Machine.execDirput h s
  | .dirdel h => Sys2Proof.Machine.execDirdel h s
  | .dirmove h => Sys2Proof.Machine.execDirmove h s
  | .dirq h => Sys2Proof.Machine.execDirq h s
  | .solicit h m => Sys2Proof.Machine.execSolicit h m s
  | .respond h => Sys2Proof.Machine.execRespond h s
  | .nop h => Sys2Proof.Machine.execNop h s
  | .joinat h => Sys2Proof.Machine.execJoinat h s
  | .lpad h => Sys2Proof.Machine.execLpad h s
  | .ovl h => Sys2Proof.Machine.execOvl h s
  | .brk h => Sys2Proof.Machine.execBrk h s
  | .trap h => Sys2Proof.Machine.execTrap h s
  | .rte h => Sys2Proof.Machine.execRte h s
  | .sread h => Sys2Proof.Machine.execSread h s
  | .swrite h => Sys2Proof.Machine.execSwrite h s
  | .ctxsv h => Sys2Proof.Machine.execCtxsv h s
  | .ctxld h => Sys2Proof.Machine.execCtxld h s
  | .errq h => Sys2Proof.Machine.execErrq h s
  | .kill h => Sys2Proof.Machine.execKill h s
  | .registerFill id => Sys2Proof.Machine.execRegisterFill id s
  | .copyStatusFill id refused => Sys2Proof.Machine.execCopyStatusFill id refused s
  | .ovlLoadComplete id => Sys2Proof.Machine.execOvlLoadComplete id s
  | .entryOverlayLoad core => Sys2Proof.Machine.execEntryOverlayLoad core s
  | .arrivalCounterIncrement id => Sys2Proof.Machine.execArrivalCounterIncrement id s
  | .sleepExpiry core slot => Sys2Proof.Machine.execSleepExpiry core slot s
  | .spawnRetry core slot => Sys2Proof.Machine.execSpawnRetry core slot s
  | .coalescingTimerExpiry vd graph node => Sys2Proof.Machine.execCoalescingTimerExpiry vd graph node s
  | .binTeamStart vd graph node => Sys2Proof.Machine.execBinTeamStart vd graph node s
  | .pageWalkComplete id => Sys2Proof.Machine.execPageWalkComplete id s
  | .remoteWriteAck id refused => Sys2Proof.Machine.execRemoteWriteAck id refused s
  | .censusSlotTaken vd => Sys2Proof.Machine.execCensusSlotTaken vd s
  | .censusScan vd slot core => Sys2Proof.Machine.execCensusScan vd slot core s
  | .responderPlace core => Sys2Proof.Machine.execResponderPlace core s
  | .responderBoundExpiry id => Sys2Proof.Machine.execResponderBoundExpiry id s
  | .doneReport vd slot core => Sys2Proof.Machine.execDoneReport vd slot core s
  | .responseCombine vd slot id => Sys2Proof.Machine.execResponseCombine vd slot id s
  | .censusClose vd slot => Sys2Proof.Machine.execCensusClose vd slot s
  | .moveReserve id => Sys2Proof.Machine.execMoveReserve id s
  | .moveCommit id => Sys2Proof.Machine.execMoveCommit id s
  | .moveInstall id => Sys2Proof.Machine.execMoveInstall id s
  | .moveAck id => Sys2Proof.Machine.execMoveAck id s
  | .queueMap vd queue => Sys2Proof.Machine.execQueueMap vd queue s
  | .watchedWordRetest thread => Sys2Proof.Machine.execWatchedWordRetest thread s
  | .nopPacket vd queue => Sys2Proof.Machine.execNopPacket vd queue s
  | .launchPacket vd queue => Sys2Proof.Machine.execLaunchPacket vd queue s
  | .copyPacket vd queue => Sys2Proof.Machine.execCopyPacket vd queue s
  | .copyPacketComplete id refusedAt => Sys2Proof.Machine.execCopyPacketComplete id refusedAt s
  | .waitValuePacket vd queue => Sys2Proof.Machine.execWaitValuePacket vd queue s
  | .signalPacket vd queue => Sys2Proof.Machine.execSignalPacket vd queue s
  | .setShapePacket vd queue => Sys2Proof.Machine.execSetShapePacket vd queue s
  | .graphPacket vd queue => Sys2Proof.Machine.execGraphPacket vd queue s
  | .bindWarmPacket vd queue => Sys2Proof.Machine.execBindWarmPacket vd queue s
  | .deadlinePacket vd queue => Sys2Proof.Machine.execDeadlinePacket vd queue s
  | .barrierPacket vd queue => Sys2Proof.Machine.execBarrierPacket vd queue s
  | .launchDispatch vd launch => Sys2Proof.Machine.execLaunchDispatch vd launch s
  | .graphNodeDispatch vd graph node => Sys2Proof.Machine.execGraphNodeDispatch vd graph node s
  | .teamPlace vd launch team core => Sys2Proof.Machine.execTeamPlace vd launch team core s
  | .regulatorStable die => Sys2Proof.Machine.execRegulatorStable die s
  | .sliceExpiry core => Sys2Proof.Machine.execSliceExpiry core s
  | .preempt core => Sys2Proof.Machine.execPreempt core s
  | .discardComplete vd launch team => Sys2Proof.Machine.execDiscardComplete vd launch team s
  | .saveComplete vd launch team => Sys2Proof.Machine.execSaveComplete vd launch team s
  | .saveTimeout vd launch team => Sys2Proof.Machine.execSaveTimeout vd launch team s
  | .launchDone vd launch => Sys2Proof.Machine.execLaunchDone vd launch s
  | .deadlineExpiry vd launch => Sys2Proof.Machine.execDeadlineExpiry vd launch s
  | .watchdogExpiry vd queue => Sys2Proof.Machine.execWatchdogExpiry vd queue s
  | .jobRecordFlush vd => Sys2Proof.Machine.execJobRecordFlush vd s
  | .idleThreshold vd => Sys2Proof.Machine.execIdleThreshold vd s
  | .collapseComplete vd => Sys2Proof.Machine.execCollapseComplete vd s
  | .wakeWrite line => Sys2Proof.Machine.execWakeWrite line s
  | .wakeNotice vd die => Sys2Proof.Machine.execWakeNotice vd die s
  | .wakeComplete vd => Sys2Proof.Machine.execWakeComplete vd s
  | .wakeFault vd cycles => Sys2Proof.Machine.execWakeFault vd cycles s
  | .operatingPointLower die point => Sys2Proof.Machine.execOperatingPointLower die point s
  | .coreRetirement core => Sys2Proof.Machine.execCoreRetirement core s
  | .associationPacketReceive pkt => Sys2Proof.Machine.execAssociationPacketReceive pkt s
  | .associationKeyAgreement assoc host salt verified => Sys2Proof.Machine.execAssociationKeyAgreement assoc host salt verified s
  | .ideKeyRefresh port => Sys2Proof.Machine.execIdeKeyRefresh port s
  | .cxlIntegrityFailure port => Sys2Proof.Machine.execCxlIntegrityFailure port s
  | .portRecalibrate port => Sys2Proof.Machine.execPortRecalibrate port s
  | .portFail port => Sys2Proof.Machine.execPortFail port s
  | .cxlDeviceAdd port base gib => Sys2Proof.Machine.execCxlDeviceAdd port base gib s
  | .powerUp => Sys2Proof.Machine.execPowerUp s
  | .electionClose => Sys2Proof.Machine.execElectionClose s
  | .ownerLoss => Sys2Proof.Machine.execOwnerLoss s
  | .createVirtualDevice req => Sys2Proof.Machine.execCreateVirtualDevice req s
  | .destroyVirtualDevice req => Sys2Proof.Machine.execDestroyVirtualDevice req s
  | .installKeySet req => Sys2Proof.Machine.execInstallKeySet req s
  | .setPtroot req => Sys2Proof.Machine.execSetPtroot req s
  | .invalidateRange req => Sys2Proof.Machine.execInvalidateRange req s
  | .invalidateComplete id => Sys2Proof.Machine.execInvalidateComplete id s
  | .writePeerEntry req => Sys2Proof.Machine.execWritePeerEntry req s
  | .bindAssociation req => Sys2Proof.Machine.execBindAssociation req s
  | .loadContainer req => Sys2Proof.Machine.execLoadContainer req s
  | .unloadContainer req => Sys2Proof.Machine.execUnloadContainer req s
  | .createQueue req => Sys2Proof.Machine.execCreateQueue req s
  | .deleteQueue req => Sys2Proof.Machine.execDeleteQueue req s
  | .resumeQueue req => Sys2Proof.Machine.execResumeQueue req s
  | .resetQueue req => Sys2Proof.Machine.execResetQueue req s
  | .setRecordRing req => Sys2Proof.Machine.execSetRecordRing req s
  | .createSharedRange req => Sys2Proof.Machine.execCreateSharedRange req s
  | .grantSharedRange req => Sys2Proof.Machine.execGrantSharedRange req s
  | .revokeSharedRange req => Sys2Proof.Machine.execRevokeSharedRange req s
  | .deleteSharedRange req => Sys2Proof.Machine.execDeleteSharedRange req s
  | .updateFirmware req => Sys2Proof.Machine.execUpdateFirmware req s
  | .firmwareSwitch thread => Sys2Proof.Machine.execFirmwareSwitch thread s
  | .setAuthorisedDigest req => Sys2Proof.Machine.execSetAuthorisedDigest req s
  | .clearAuthorisedDigest req => Sys2Proof.Machine.execClearAuthorisedDigest req s
  | .handOverOwnership req => Sys2Proof.Machine.execHandOverOwnership req s
  | .wakeRequest req => Sys2Proof.Machine.execWakeRequest req s
  | .resetContext req => Sys2Proof.Machine.execResetContext req s
  | .readPackageStatus req => Sys2Proof.Machine.execReadPackageStatus req s
  | .readDeviationRing req => Sys2Proof.Machine.execReadDeviationRing req s
  | .readJobRecords req => Sys2Proof.Machine.execReadJobRecords req s
  | .claimOwnership req => Sys2Proof.Machine.execClaimOwnership req s
  | .acceptHandover req => Sys2Proof.Machine.execAcceptHandover req s
  | .globalWritePerformed id => Sys2Proof.Machine.execGlobalWritePerformed id s
  | .badPacket vd queue => Sys2Proof.Machine.execBadPacket vd queue s
  | .illegalInstruction reason => Sys2Proof.Machine.execIllegalInstruction reason s
  | .nonresidentOverlayIssue => Sys2Proof.Machine.execNonresidentOverlayIssue s
  | .portReestablished port => Sys2Proof.Machine.execPortReestablished port s

end Sys2Proof.Machine
end

