-- ==== Sys2Proof/Machine/Turn.lean ====
section
/-!
DEFINITION. What moves next: the issue of a beam (R246, R259, R369), the events that the state makes due, the rounds in which all of them
have their turn, and where an instruction word is fetched. The order of events is the agenda's where it names one, and the model's otherwise (log entry 4).
-/
namespace Sys2Proof.Machine

/-! ### Issue (R246) -/

/-- The instruction word at a code address of a core, where its overlay is resident (R52, R259). -/
def Core.fetch (c : Core) (pc : Word) : Option InsnWord := (c.slotOf (ovlOf pc)).map (fun slot => c.word slot (idxOf pc))

/-- What a beam presents at issue: an instruction of the map, or one of the traps of an issue without a word; none while its
overlay loads (R79, R259). -/
def Core.present (c : Core) (b : Beam) (pc : Word) : Option Instr :=
  match c.fetch pc with
  | some w =>
    match illegalReason b.limits w with
    | some r => some (.illegalInstruction r)
    | none => decodeWord w
  | none => if (c.loadingIn (ovlOf pc)).isSome then none else some .nonresidentOverlayIssue

/-- A handler that waits for overlay 255: it issues where the overlay is resident, and the load into slot 3 starts where no slot
holds or loads it (R369). DESIGN CHOICE (log entry 170): that load stands in no thread's program order. -/
def State.fetchHandler (s : State) (core slot : Nat) (b : Beam) (vd : Nat) : State :=
  let c := s.core core
  if (c.slotOf 255).isSome then s.setBeam core slot { b with fetch := false }
  else if (c.loadingIn 255).isSome || c.slotLoading 3 then s
  else s.startLoad core 3 vd 255 (some { core := core, slot := slot, gen := b.gen }) {} true

/-- May the team of a core issue: its virtual device is awake, its die's regulator does not hold it, and its entry overlay is in
(R259, R293, R335)? -/
def State.mayIssue (s : State) (core : Nat) (t : Team) : Bool :=
  (match s.vds.look t.vd with | some d => d.power == .awake | none => false) &&
    !(s.gov.getD (dieOf core) {}).held.contains (core, t.gen) && !t.entry

/-- Did a step change more than the model's own counters? -/
def State.moved (s t : State) : Bool :=
  decide ({ t with
    fresh := s.fresh, nextId := s.nextId, cur := s.cur, agenda := s.agenda, beat := s.beat, round := s.round, clock := s.clock } ≠ s)

/-- The slot that issued last in its quadrant, after an instruction that was not held (R246). -/
def State.noteTurn (s : State) (core slot : Nat) : Out → Out
  | .next t => .next (if s.moved t then t.updCore core (fun c => { c with rr := c.rr.put (slot / 16) slot }) else t)
  | o => o

/-- A ready beam presents its instruction. -/
def State.issueReady (s : State) (core slot : Nat) (b : Beam) (vd : Nat) : Out :=
  if b.fetch then .next (s.fetchHandler core slot b vd)
  else if b.drains then .next s
  else match b.flow.run with
    | none => .next (s.endBeam core slot)
    | some p =>
      if (s.core core).staleAt p.pc then .next (s.refetch core slot b vd p.pc)
      else match (s.core core).present b p.pc with
      | none => .next s
      | some i => s.noteTurn core slot (exec i s)

/-- A beam comes to issue. A selector that waited for its instruction's operation takes effect first (R60). -/
def State.issueAt (s : State) (core slot : Nat) : Out :=
  let s := { s with cur := some (core, slot) }.finish core slot
  match s.beam? core slot with
  | none => .next s
  | some b =>
    match s.teamOf core b with
    | none => .next s
    | some t => if b.sleep == .ready && s.mayIssue core t then s.issueReady core slot b t.vd else .next s

/-! ### Events that are due -/

/-- The events of results, accesses, copies, loads, arrivals, walks and moves in flight. -/
def State.flightEvents (s : State) : List Instr :=
  s.gops.map (fun g => if g.done then Instr.remoteWriteAck g.id false else Instr.globalWritePerformed g.id) ++
    (s.gops.filter (fun g => !g.done && !g.acked)).map (fun g => Instr.remoteWriteAck g.id false) ++
    s.walks.map (fun w => Instr.pageWalkComplete w.id) ++ s.copies.map (fun c => Instr.copyStatusFill c.id []) ++
    s.arrivals.map (fun a => Instr.arrivalCounterIncrement a.id) ++
    s.fills.map (fun f => if f.prism.isSome then Instr.prismComplete f.id 0 else Instr.registerFill f.id) ++
    s.ovls.map (fun l => Instr.ovlLoadComplete l.id) ++
    s.moves.flatMap (fun m => [Instr.moveReserve m.id, Instr.moveCommit m.id, Instr.moveInstall m.id, Instr.moveAck m.id]) ++
    s.pcopies.map (fun c => Instr.copyPacketComplete c.id none)

/-- The events of the cores: entry overlays, spawns that retry, retired cores. -/
def State.coreEvents (s : State) : List Instr :=
  s.cores.flatMap (fun c =>
    (match c.2.team with | some t => if t.entry then [Instr.entryOverlayLoad c.1] else [] | none => []) ++
    (c.2.beams.filter (fun b => b.2.sleep.parked.isSome)).map (fun b => Instr.spawnRetry c.1 b.1) ++
    (if c.2.retired then [Instr.coreRetirement c.1] else []))

/-- The events of a virtual device's censuses. -/
def censusEvents (v : Nat) (d : VDev) : List Instr :=
  (if d.waiting.isEmpty then [] else [Instr.censusSlotTaken v]) ++
    d.slots.flatMap (fun q =>
      d.cores.map (fun n => Instr.censusScan v q.1 n) ++
      (q.2.resps.filter (fun r => !r.placed)).map (fun r => Instr.responderPlace r.core) ++
      d.cores.map (fun n => Instr.doneReport v q.1 n) ++
      (q.2.resps.filter (fun r => r.msg.isSome)).map (fun r => Instr.responseCombine v q.1 r.id) ++ [Instr.censusClose v q.1])

/-- The events of a virtual device's launches and graphs. -/
def launchEvents (v : Nat) (d : VDev) : List Instr :=
  d.launches.flatMap (fun l =>
    if l.2.st == .done then []
    else
      [Instr.launchDispatch v l.1, Instr.launchDone v l.1] ++
      l.2.teams.flatMap (fun t => match t.2 with
        | .discarding _ => [Instr.discardComplete v l.1 t.1]
        | .saving _ => [Instr.saveComplete v l.1 t.1]
        | _ => []) ++
      l.2.candidates.flatMap (fun i => d.cores.map (fun n => Instr.teamPlace v l.1 i n))) ++
    d.graphs.flatMap (fun g =>
      if g.2.done then []
      else g.2.nodes.flatMap (fun n => [Instr.binTeamStart v g.1 n.1, Instr.graphNodeDispatch v g.1 n.1])) ++
    d.cores.map (fun n => Instr.preempt n)

/-- The events of a virtual device's queues. -/
def queueEvents (v : Nat) (d : VDev) : List Instr :=
  d.queues.flatMap (fun q => [Instr.queueMap v q.1, Instr.nopPacket v q.1, Instr.launchPacket v q.1, Instr.copyPacket v q.1,
    Instr.waitValuePacket v q.1, Instr.signalPacket v q.1, Instr.setShapePacket v q.1, Instr.graphPacket v q.1,
    Instr.bindWarmPacket v q.1, Instr.deadlinePacket v q.1, Instr.barrierPacket v q.1, Instr.badPacket v q.1])

/-- The events of a virtual device's power and records. -/
def powerEvents (v : Nat) (d : VDev) : List Instr :=
  d.notices.map (fun n => Instr.wakeNotice v n) ++
    (match d.power with
     | .collapsing => [Instr.collapseComplete v]
     | .waking => [Instr.wakeComplete v]
     | _ => []) ++ (if d.recKept.isEmpty then [] else [Instr.jobRecordFlush v])

/-- The expiries of the timers that run: of sleeps, slices, responders, bins, saves, deadlines, watchdogs, idle counts and re-calibrations
(R392), and the end of an election that has a claim. -/
def State.timers (s : State) : List Instr :=
  s.cores.flatMap (fun c => (c.2.beams.filter (fun b => b.2.sleep == .sleeping)).map (fun b => Instr.sleepExpiry c.1 b.1) ++
    c.2.responders.map (fun e => Instr.responderBoundExpiry e.1)) ++
    s.vds.flatMap (fun e =>
      e.2.graphs.flatMap (fun g => (g.2.nodes.filter (fun n => n.2.timing)).map (fun n => Instr.coalescingTimerExpiry e.1 g.1 n.1)) ++
      e.2.slots.flatMap (fun q => (q.2.resps.filter (fun r => !r.closed && !r.placed)).map (fun r => Instr.responderBoundExpiry r.id)) ++
      e.2.launches.flatMap (fun l =>
        (l.2.teams.filter (fun t => match t.2 with | .saving _ => true | _ => false)).map (fun t => Instr.saveTimeout e.1 l.1 t.1) ++
          (if l.2.st != .done && l.2.dline != 0 then [Instr.deadlineExpiry e.1 l.1] else [])) ++
      (e.2.queues.filter (fun q => q.2.wdog != 0)).map (fun q => Instr.watchdogExpiry e.1 q.1) ++ [Instr.idleThreshold e.1]) ++
    s.cores.map (fun c => Instr.sliceExpiry c.1) ++ (if s.mgmt.open_ && !s.mgmt.claims.isEmpty then [Instr.electionClose] else []) ++
    (s.mgmt.ports.filter (fun e => e.2 == .calibrating)).map (fun e => Instr.portFail (portOfKey e.1))

/-- The events that the state makes due, without those of ports, hosts and errors, which the agenda names, and of timers. -/
def State.events (s : State) : List Instr :=
  (s.wakeBits.filter (fun e => e.2.2)).map (fun e => Instr.wakeWrite e.1) ++ s.flightEvents ++ s.coreEvents ++
    s.vds.flatMap (fun e => powerEvents e.1 e.2 ++ censusEvents e.1 e.2 ++ launchEvents e.1 e.2 ++ queueEvents e.1 e.2) ++
    s.threads.flatMap (fun t => [Instr.watchedWordRetest t.1, Instr.firmwareSwitch t.1]) ++
    (s.gov.filter (fun g => !g.2.stable)).map (fun g => Instr.regulatorStable g.1) ++
    s.mgmt.invals.map (fun i => Instr.invalidateComplete i.id) ++ s.mgmt.held.map Instr.loadContainer ++
    s.mgmt.packets.map Instr.associationPacketReceive

/-- The next state of an outcome, where something moved. -/
def State.progress (s : State) : Out → Option State
  | .next t => if s.moved t then some t else none
  | _ => none

/-- The slots of a quadrant of a core in the order in which they come to issue: after the slot that issued last (R246). -/
def Core.turns (c : Core) (quad : Nat) : List Nat :=
  let from_ : Nat := match c.rr.look quad with | some slot => slot + 1 | none => 0
  ((List.range 16).map (fun i => 16 * quad + (from_ + i) % 16)).filter (fun slot => (c.beams.look slot).isSome)

/-- The beams in the order in which they come to issue: after the core and quadrant that issued last, and within a quadrant after
the slot that issued last (R246). -/
def State.rotation (s : State) : List (Nat × Nat) :=
  let all := s.cores.flatMap (fun c => (List.range 4).map (fun q => (c.1, q)))
  let last : Nat := match s.cur with | some (core, slot) => 4 * core + slot / 16 + 1 | none => 0
  let order := all.filter (fun e => decide (last ≤ 4 * e.1 + e.2)) ++ all.filter (fun e => decide (4 * e.1 + e.2 < last))
  order.flatMap (fun e => ((s.core e.1).turns e.2).map (fun slot => (e.1, slot)))

/-- A beam comes to issue, where no ready beam of its quadrant comes before it: then that one does (R246). -/
def State.issueTurn (s : State) (core slot : Nat) : Out :=
  match (((s.core core).turns (slot / 16)).takeWhile (· != slot)).findSome? (fun k => s.progress (s.issueAt core k)) with
  | some t => .next t
  | none => s.issueAt core slot

/-- Does an instruction come about only as a beam's issue (R57, R79, R259)? -/
def Instr.issues (i : Instr) : Bool :=
  i.isWord || (match i with | .illegalInstruction _ => true | .nonresidentOverlayIssue => true | _ => false)

/-- A move of the agenda. An instruction word is no event: it is issued by the beam that fetches it, in its turn (R246). -/
def State.act (s : State) : Act → Out
  | .issue core slot => s.issueTurn core slot
  | .event i => if Instr.issues i then .next s else exec i s
  | .error g => .next (s.event g)
  | .keep core slot thread gran => .next (s.keepOlder core slot thread gran)
  | .keepSpad core slot thread gran => .next (s.keepSpad core slot thread gran)
  | .collapse vd => .next (s.collapseOne vd)
  | .lapse => .next s.lapse

/-! ### Rounds (R5, R6; log entry 4) -/

/-- The first of some moves that are still to be made and that changes something: the state that it gives, and the moves after it. -/
def State.firstOf {α : Type} (s : State) (live : α → Bool) (run : α → Out) : List α → Option (State × List α)
  | [] => none
  | a :: rest =>
    match (if live a then s.progress (run a) else none) with
    | some t => some (t, rest)
    | none => State.firstOf s live run rest

/-- What a round brings: every event that is due when it begins, then every beam in its turn. -/
def State.roundMoves (s : State) : List Act := s.events.map Act.event ++ s.rotation.map (fun e => Act.issue e.1 e.2)

/-- Is a move of a round still to be made, where some events are due? An event that is no longer due is passed over. -/
def Act.still (due : List Instr) : Act → Bool
  | .event i => due.contains i
  | _ => true

/-- The next move of a round. -/
def State.nextOf (s : State) (l : List Act) : Option State :=
  let due := s.events
  (s.firstOf (Act.still due) s.act l).map (fun r => { r.1 with round := r.2 })

/-- The next timer that expires: of those still to come round, else of all that run. -/
def State.expire (s : State) : Option State :=
  let due := s.timers
  let next (l : List Instr) : Option State := (s.firstOf due.contains (fun i => exec i s) l).map (fun r => { r.1 with clock := r.2 })
  (next s.clock).orElse (fun _ => next due)

/-- The rounds between which a timer expires, whatever else moves. -/
def beats : Nat := 65536

/-- A round begun: a timer expires first once in so many rounds, and where nothing else moves; with nothing to do, the package stays as
it is. -/
def State.beginRound (s : State) : State :=
  let timer : Option State := if s.beat % beats = beats - 1 then s.expire.map (fun t => { t with round := [] }) else none
  match timer.orElse (fun _ => (s.nextOf s.roundMoves).orElse (fun _ => s.expire)) with
  | some t => { t with beat := s.beat + 1 }
  | none => s

/-- What moves with nothing named by the agenda: the round goes on, and a new one begins when it is over. Every event and every beam has
its chance in each round, and every timer comes round, so none holds another back for ever. -/
def State.turn (s : State) : State := (s.nextOf s.round).getD s.beginRound

/-- One step of the package: what the agenda names, else what the round brings. -/
def State.tick (s : State) : Out :=
  match s.agenda with
  | a :: rest => { s with agenda := rest }.act a
  | [] => .next s.turn

/-! ### A word placed where the package fetches it -/

/-- A descriptor that owns cluster 0 and segment 1, with landing-pad checking off and the deviation ring at the start of the
segment. -/
def probeDescr : BitVec 1024 := BitVec.ofNat 1024 (2 ^ 856 + 2 ^ 729 + 2 ^ 704 + 2 ^ 592 * 2 ^ 30)

/-- The declarations of the beam that fetches a placed word: every register exists. -/
def probeDecl : Decl := { vregs := 256, cregs := 64, mcap := 64, mcount := 16, spad := 4096, noinit := true }

/-- A package in which one beam of one team is about to issue a word from index 0 of overlay 0. -/
def State.withWord (s : State) (w : InsnWord) : State :=
  let b : Beam := { idx := 0, gen := 0, decl := probeDecl, flow := Flow.start (BitVec.allOnes 32) (codeAddr 0 0) }
  let t : Team := { vd := 0, launch := 0, decl := probeDecl }
  let c : Core := { beams := [(0, b)], team := some t, slots := [(0, { overlay := some 0, words := [w] })] }
  let l : Launch := { queue := 0, packet := 1, node := none, st := .running, number := some 0, count := 1, next := 1, teams := [(0, .resident 0)]
                      placed := [0] }
  let d : VDev := { descr := probeDescr, overlays := [(0, { cont := 0, image := 0, count := 1, digest := 0 })]
                    launches := [(0, l)], nextL := 1, nextNum := 1 }
  { s with cores := s.cores.put 0 c, vds := s.vds.put 0 d, agenda := [.issue 0 0], cur := none }

end Sys2Proof.Machine
end

