-- ==== Sys2Proof/Machine/Step.lean ====
section
/-!
DEFINITION. One step of the package, and a word stored where the next step fetches it.
-/
namespace Sys2Proof.Machine

/-- One step of the package. -/
def step (s : State) : Host.Outcome State Fault Refusal := s.tick

/-- The package with an instruction where the next step fetches it: a program comes to a core only by being launched (log
entry 1), so a team is placed whose beam issues it. -/
def State.withFetchWord (s : State) (nbits w : Nat) : State := s.withWord (wordOfBytes (leBytes 12 (w % 2 ^ nbits)))

end Sys2Proof.Machine
end

