-- ==== Sys2Proof/Safety.lean ====
section
/-!
DEFINITION. What counts as a safe run, and the words in which the statements are written: what every step keeps, the
outcomes a step may have, an instruction that passes every check at issue, and what it then does.
-/
namespace Sys2Proof.Machine

/-! ### Safe runs -/

/-- Memory is in its canonical form. -/
abbrev State.MemoryOk (s : State) : Prop := Memory.wf s.mem = true

/-- No error queue holds more than its 256 entries (R379). -/
abbrev State.ErrorsOk (s : State) : Prop := ∀ e ∈ s.vds, e.2.errq.length ≤ 256

/-- Virtual devices are numbered 0 to 63 (R327). -/
abbrev State.NumbersOk (s : State) : Prop := ∀ e ∈ s.vds, e.1 < 64

/-- An outcome that is no fault: a next state, or the refusal of a word that no beam issues. -/
def NoFault (o : Out) : Prop := (∃ t, o = .next t) ∨ o = .refused .noIssuingBeam

/-! ### An instruction at issue -/

/-- The instruction as it issues where every check of R368, items 1 to 4, passes for the beam that comes to issue: the word
is legal for the beam, its selector does not fault, its operands and destinations are full, no floating operand holds a launch
marker and no selecting operand is poisoned. A condition on the word and on the state alone. -/
def State.passes (s : State) (i : Instr) : Option Iss :=
  match i.view, s.front with
  | some (op, h, ms), some f =>
    match s.gate f op h ms with
    | .go x => some x
    | _ => none
  | _, _ => none

/-- Results of a type, one for each executing thread; a poisoned value operand marks them (R385). -/
def Iss.results (x : Iss) (t : Ty) (r : Nat → Nat) : RegOut := x.each (fun l => x.out t l (r l) (x.marked l))

/-- Predicate results, one for each executing thread. -/
def Iss.predResults (x : Iss) (r : Nat → Bool) : RegOut := x.each (fun l => x.outPred l (r l) (x.marked l))

/-- The instruction completes, and its results are there for the next instruction. -/
def Writes (i : Instr) (o : Iss → RegOut) : Prop :=
  ∀ s x, s.passes i = some x → exec i s = .next (s.apply x (.write (o x) s))

/-- The instruction completes: its destination is emptied and its results are put in flight (R64). -/
def Sends (i : Instr) (o : Iss → RegOut) : Prop :=
  ∀ s x, s.passes i = some x → exec i s = .next (s.apply x (.send (o x) s))

/-- The instruction writes results of a type, each the given function of its thread. -/
def Sets (i : Instr) (t : Ty) (r : Iss → Nat → Nat) : Prop := Writes i (fun x => x.results t (r x))

/-- The instruction writes predicate results, each the given function of its thread. -/
def SetsPred (i : Instr) (r : Iss → Nat → Bool) : Prop := Writes i (fun x => x.predResults (r x))

/-- The instruction writes results of a type that have a property. -/
def SetsSuch (i : Instr) (t : Ty) (P : Iss → Nat → Nat → Prop) : Prop :=
  ∀ s x, s.passes i = some x →
    ∃ r : Nat → Nat, (∀ l ∈ x.lanes, P x l (r l)) ∧ exec i s = .next (s.apply x (.write (x.results t r) s))

/-- The instruction puts results of a type that have a property in flight. -/
def SendsSuch (i : Instr) (t : Ty) (P : Iss → Nat → Nat → Prop) : Prop :=
  ∀ s x, s.passes i = some x →
    ∃ r : Nat → Nat, (∀ l ∈ x.lanes, P x l (r l)) ∧ exec i s = .next (s.apply x (.send (x.results t r) s))

/-! ### Integers (R112) -/

/-- val(T, x). -/
def asInt (t : Ty) (n : Nat) : Int := if t.signed then (BitVec.ofNat t.width n).toInt else (BitVec.ofNat t.width n).toNat

/-- The w-bit pattern of an integer. -/
def pattern (t : Ty) (y : Int) : Nat := (BitVec.ofInt t.width y).toNat

/-- lo(T) and hi(T). -/
def rangeOf (t : Ty) : Int × Int :=
  if t.signed then (-2 ^ (t.width - 1), 2 ^ (t.width - 1) - 1) else (0, 2 ^ t.width - 1)

/-- fit(T, y) under a SAT value. -/
def fitted (t : Ty) (sat : Bool) (y : Int) : Nat :=
  pattern t (if sat then min (max y (rangeOf t).1) (rangeOf t).2 else y)

/-- val(T, A) of an executing thread. -/
def Iss.aInt (x : Iss) (t : Ty) (l : Nat) : Int := asInt t (x.val x.h.a t l)

/-- val(T, B). -/
def Iss.bInt (x : Iss) (t : Ty) (l : Nat) : Int := asInt t (x.val x.h.b t l)

/-- val(T, C), and 0 where C is none. -/
def Iss.cInt (x : Iss) (t : Ty) (l : Nat) : Int := asInt t (x.val x.h.c t l)

/-- Bit k of A at the width of a type. -/
def Iss.aBit (x : Iss) (t : Ty) (l k : Nat) : Bool := decide (k < t.width) && (x.val x.h.a t l).testBit k

/-- B as an unsigned 32-bit value. -/
def Iss.bCount (x : Iss) (l : Nat) : Nat := x.val x.h.b .n32 l % 2 ^ 32

/-- C as an unsigned 32-bit value. -/
def Iss.cCount (x : Iss) (l : Nat) : Nat := x.val x.h.c .n32 l % 2 ^ 32

/-- The value holds exactly the given bits, below the width of a type. -/
def HasBits (t : Ty) (r : Nat) (f : Nat → Bool) : Prop := ∀ k, r.testBit k = (decide (k < t.width) && f k)

/-- q is the quotient of a by b truncated toward zero, and m the remainder, with the sign of a. -/
def Truncates (a b q m : Int) : Prop := a = b * q + m ∧ m.natAbs < b.natAbs ∧ (m = 0 ∨ (0 < m ↔ 0 < a))

/-! ### Floating values (R81, R91, R99) -/

/-- The number that a finite exact value is. -/
def numberOf : Ext → Rat
  | .fin neg m e => (if neg then -1 else 1) * (m : Rat) * 2 ^ e
  | _ => 0

/-- Is the value finite? -/
def finite : Ext → Bool
  | .fin _ _ _ => true
  | _ => false

/-- The magnitude of y ranks above that of x: a NaN above every number (R167). -/
def Outranks (y x : Ext) : Prop :=
  x ≠ .nan ∧ (y = .nan ∨ finite x = true ∧ (finite y = false ∨ (numberOf x).abs < (numberOf y).abs))

/-- The code of a format is finite and has the value y. -/
def CodeOf (t : Ty) (c : Nat) (y : Rat) : Prop := c < 2 ^ t.width ∧ finite (t.decode c) = true ∧ numberOf (t.decode c) = y

/-- The code r is what round_to gives for x, a number no larger in magnitude than the largest finite value (R91): x itself where
it is a value of the format, otherwise one of its two neighbours, chosen by the mode. -/
def RoundsTo (t : Ty) (mode : Rnd) (x : Rat) (r : Nat) : Prop :=
  ∃ y, CodeOf t r y ∧
    ((∃ c, CodeOf t c x) → y = x) ∧
    (∀ c z, CodeOf t c z → ¬(x < z ∧ z < y) ∧ ¬(y < z ∧ z < x)) ∧
    match mode with
    | .rtz => y.abs ≤ x.abs ∧ 0 ≤ x * y
    | .rdn => y ≤ x
    | .rup => x ≤ y
    | .rne | .rfmt => ∀ c z, CodeOf t c z → (x - y).abs ≤ (x - z).abs ∧ (z ≠ y → (x - y).abs = (x - z).abs → r % 2 = 0)
    | .rna => ∀ c z, CodeOf t c z → (x - y).abs ≤ (x - z).abs ∧ ((x - y).abs = (x - z).abs → z.abs ≤ y.abs)

/-- The code r is what round_to gives for the positive root of y, which no format holds midway between two of its values (R91): two values
of the format and their midpoints are compared with the root by their squares. -/
def RootRoundsTo (t : Ty) (mode : Rnd) (y : Rat) (r : Nat) : Prop :=
  ∃ z, CodeOf t r z ∧ 0 ≤ z ∧ r.testBit (t.width - 1) = false ∧
    ((∃ c w, CodeOf t c w ∧ w * w = y) → z * z = y) ∧
    (∀ c w, CodeOf t c w → 0 ≤ w → ¬(y < w * w ∧ w * w < z * z) ∧ ¬(z * z < w * w ∧ w * w < y)) ∧
    match mode with
    | .rtz | .rdn => z * z ≤ y
    | .rup => y ≤ z * z
    | _ => ∀ c w, CodeOf t c w → 0 ≤ w → (z < w → 4 * y ≤ (z + w) * (z + w)) ∧ (w < z → (z + w) * (z + w) ≤ 4 * y)

/-- The integer q is rint(mode, x) (R91). -/
def RintsTo (mode : Rnd) (x : Rat) (q : Int) : Prop :=
  match mode with
  | .rtz => (q : Rat).abs ≤ x.abs ∧ x.abs < (q : Rat).abs + 1 ∧ 0 ≤ x * q
  | .rdn => (q : Rat) ≤ x ∧ x < q + 1
  | .rup => x ≤ q ∧ (q : Rat) < x + 1
  | .rne | .rfmt => (x - q).abs ≤ 1 / 2 ∧ ((x - q).abs = 1 / 2 → q % 2 = 0)
  | .rna => (x - q).abs ≤ 1 / 2 ∧ ((x - q).abs = 1 / 2 → x.abs ≤ (q : Rat).abs)

/-- The number a block is built from: an infinity counts as the largest FP32 value of its sign (R87, R89). -/
def blockNumber (xs : List Ext) (i : Nat) : Rat :=
  match xs[i]? with
  | some (.inf neg) => (if neg then -1 else 1) * (2 ^ 24 - 1) * 2 ^ 104
  | some x => numberOf x
  | none => 0

/-- The exponent that a block's numbers ask for: `least` where they are all zero, otherwise floor(log2(a)) + `off` for the largest
magnitude a, kept within 0 to 254 (R87, R89). -/
def BlockExponent (y : Nat → Rat) (n : Nat) (off : Int) (least e : Nat) : Prop :=
  ((∀ i < n, y i = 0) → e = least) ∧
  ∀ k : Int, (∃ i < n, (2 : Rat) ^ k ≤ (y i).abs) → (∀ i < n, (y i).abs < (2 : Rat) ^ (k + 1)) →
    (e : Int) = min (max (k + off) 0) 254

/-- The five rounding modes of R91. -/
def modes : List Rnd := [.rne, .rtz, .rdn, .rup, .rna]

/-- The element that an operand holds: bits w - 1 to 0 (R85). -/
def Iss.elem (x : Iss) (o : Opnd) (t : Ty) (l : Nat) : Nat := x.val o t l % 2 ^ t.width

/-- A code's place in the order of R124, in which -0 ranks below +0. -/
def totalKey (t : Ty) (c : Nat) : Int :=
  let mag : Int := (c % 2 ^ (t.width - 1) : Nat)
  if c.testBit (t.width - 1) then -1 - mag else mag

/-- A code's place in the order of R125, in which the zeros are equal. -/
def valueKey (t : Ty) (c : Nat) : Int :=
  let mag : Int := (c % 2 ^ (t.width - 1) : Nat)
  if c.testBit (t.width - 1) then -mag else mag

/-- Is the code of an IEEE format NaN? -/
def codeNan (t : Ty) (c : Nat) : Bool := decide ((2 ^ t.ebits - 1) * 2 ^ t.mant < c % 2 ^ (t.width - 1))

/-- The class bit of R126 of the code of an IEEE format. -/
def classOf (t : Ty) (c : Nat) : Nat :=
  let neg := c.testBit (t.width - 1)
  let e := c / 2 ^ t.mant % 2 ^ t.ebits
  let m := c % 2 ^ t.mant
  if e = 2 ^ t.ebits - 1 then
    if m = 0 then (if neg then 0 else 7) else if m.testBit (t.mant - 1) then 9 else 8
  else if e = 0 then
    if m = 0 then (if neg then 3 else 4) else (if neg then 2 else 5)
  else (if neg then 1 else 6)

/-- The four minima and maxima of R124: mx for the larger, num where one NaN gives way to the number. -/
def picked (t : Ty) (mx num : Bool) (a b : Nat) : Nat :=
  match codeNan t a, codeNan t b with
  | true, true => t.nanCode
  | true, false => if num then b else t.nanCode
  | false, true => if num then a else t.nanCode
  | false, false =>
    if mx then (if totalKey t a < totalKey t b then b else a) else (if totalKey t b < totalKey t a then b else a)

/-! ### Conversions (R95) -/

/-- An exact value to an integer type: rint, clamped to the range; NaN gives 0. -/
def toInteger (t : Ty) (mode : Rnd) : Ext → Nat
  | .nan => 0
  | .inf neg => pattern t (if neg then (rangeOf t).1 else (rangeOf t).2)
  | .fin neg m e =>
    let y : Int := rintMag mode neg m e
    pattern t (min (max (if neg then -y else y) (rangeOf t).1) (rangeOf t).2)

/-- An exact value to a scalar type. -/
def toScalar (t : Ty) (mode : Rnd) (sat : Bool) (v : Ext) : Nat :=
  if t.isInt then toInteger t mode v else t.round mode sat v

/-- The exact value of an element of a scalar type. -/
def valueOf (t : Ty) (c : Nat) : Ext := if t.isInt then .fin (decide (asInt t c < 0)) (asInt t c).natAbs 0 else t.decode c

/-- One element converted. -/
def converted (dst src : Ty) (mode : Rnd) (sat : Bool) (c : Nat) : Nat :=
  if dst.isInt && src.isInt then fitted dst sat (asInt src c) else toScalar dst mode sat (valueOf src c)

/-- Element k of a packed operand (R130). -/
def Iss.lane4 (x : Iss) (o : Opnd) (t : Ty) (l k : Nat) : Nat := x.pack o t l / 2 ^ (t.width * k) % 2 ^ t.width

/-- The lanes of a lane's group of g lanes. -/
def groupOf (g l : Nat) : List Nat := (List.range g).map (fun i => l / g * g + i)

/-- Does some executing lane of a lane's group hold a poisoned A (R385)? -/
def Iss.groupPoisoned (x : Iss) (g l : Nat) : Bool :=
  x.lanes.any (fun j => decide (j / g = l / g) && x.f.b.poisoned x.e.a x.h.a j)

/-! ### Matrices (R134 to R172) -/

/-- The instruction, issuing in a state that meets a condition, completes as the given end says. -/
def Does (i : Instr) (ok : Iss → State → Prop) (r : Iss → State → Res) : Prop :=
  ∀ s x, s.passes i = some x → ok x s → exec i s = .next (s.apply x (r x s))

/-- Some thread executes and the quadrant's prism is free (R142). -/
def PrismFree (x : Iss) (s : State) : Prop := x.lanes ≠ [] ∧ s.prismBusy x = false

/-- The instruction starts the prism with the given outcome for each executing thread; `empties` says that it empties its
destination (R155). -/
def Prisms (i : Instr) (empties : Bool) (r : Iss → Nat → MatOut) : Prop :=
  Does i PrismFree (fun x s => s.prismOp x empties (r x) none)

/-- SHAPE with a SUB (R145). -/
def shapeKind (sub : Nat) : Word := BitVec.ofNat 32 (3 + 16 * sub)

/-- The SUB of the first condition that holds, as an exception. -/
def firstOf (checks : List (Bool × Nat)) : Option Word := (checks.find? (·.1)).map (fun c => shapeKind c.2)

/-- The conditions of a result: a block format on a shape that breaks R136, and a result beyond capacity (R137). -/
def resultChecks (x : Iss) (t : Ty) (r c : Nat) : List (Bool × Nat) :=
  [(t.isBlock && decide (r * c % t.blockLen ≠ 0), 3), (decide (x.f.b.decl.mcap < (t.imageBytes (r * c) + 3) / 4), 4)]

/-- A thread's matrix result, unless one of the conditions of its entry or of its result holds. -/
def shaped (x : Iss) (l : Nat) (checks : List (Bool × Nat)) (d : MReg) : MatOut :=
  match firstOf (checks ++ resultChecks x d.tag d.rows d.cols) with
  | some w => .exc w
  | none => .ok (x.outM l d)

/-- Row and column counts of a shape word (R153). -/
def shapeWord (w : Nat) : Nat × Nat := (w % 2 ^ 5, w / 2 ^ 8 % 2 ^ 5)

/-- Is a shape admitted (R153)? -/
def admitted (r c : Nat) : Bool := decide (r = 0 ∧ c = 0) || decide (1 ≤ r ∧ r ≤ 16 ∧ 1 ≤ c ∧ c ≤ 16)

/-- No elements. -/
def MReg.void (r : MReg) : Bool := decide (r.rows * r.cols = 0)

/-- The code of element (i, j) of a scalar image. -/
def MReg.code (r : MReg) (i j : Nat) : Nat := imageCode r.tag r.img (i * r.cols + j)

/-- The image whose element (i, j) is given. -/
def imageFrom (t : Ty) (r c : Nat) (f : Nat → Nat → Nat) : List Byte :=
  imageOfCodes t ((List.range (r * c)).map (fun k => f (k / c) (k % c)))

/-- Row and column of an element index (R160). -/
def indexWord (w : Nat) : Nat × Nat := (w / 2 ^ 4 % 2 ^ 4, w % 2 ^ 4)

/-- The exceptions of an element access (R160). -/
def elementChecks (r : MReg) (t : Ty) (ij : Nat × Nat) : List (Bool × Nat) :=
  [(r.void, 0), (decide (r.tag ≠ t), 2), (decide (r.rows ≤ ij.1 ∨ r.cols ≤ ij.2), 1)]

/-- rd(x) of R154: round_to in the mode of R154 under the word's SAT. -/
def rdOf (m : ModA) (x : Iss) (v : Ext) : Nat := m.ty.round (if m.rnd = .rfmt then fmtRnd x.f.p.fmt else m.rnd) m.sat v

/-- An element-wise operation (R165). -/
def onElements (m : ModA) (int : Int → Int → Int) (flt : Ext → Ext → Ext) (x : Iss) (l : Nat) : MatOut :=
  let a := x.mat x.h.a l
  let b := x.mat x.h.b l
  shaped x l [(a.void || b.void, 0), (decide (a.rows ≠ b.rows ∨ a.cols ≠ b.cols), 1), (decide (a.tag ≠ m.ty ∨ b.tag ≠ m.ty), 2)]
    { rows := a.rows, cols := a.cols, tag := m.ty, pz := a.pz || b.pz
      img := imageFrom m.ty a.rows a.cols (fun i j =>
        if m.ty.isInt then fitted m.ty m.sat (int (asInt m.ty (a.code i j)) (asInt m.ty (b.code i j)))
        else rdOf m x (flt (m.ty.decode (a.code i j)) (m.ty.decode (b.code i j)))) }

/-- The reduction of a non-empty row or column (R166). -/
def reducedTo (m : ModA) (x : Iss) (r : Nat) (e : List Nat) : Prop :=
  match m.sub.toNat % 4 with
  | 0 =>
    r = if m.ty.isInt then fitted m.ty m.sat (e.map (asInt m.ty)).sum
      else rdOf m x (Ext.sum ((if m.rnd = .rfmt then fmtRnd x.f.p.fmt else m.rnd) == .rdn) (e.map m.ty.decode))
  | op =>
    if m.ty.isInt then
      r ∈ e.map (fun c => c % 2 ^ m.ty.width) ∧ ∀ c ∈ e, if op = 1 then asInt m.ty r ≤ asInt m.ty c else asInt m.ty c ≤ asInt m.ty r
    else if ∀ c ∈ e, codeNan m.ty c = true then r = m.ty.nanCode
    else r ∈ e ∧ codeNan m.ty r = false ∧ ∀ c ∈ e, codeNan m.ty c = false →
      if op = 1 then totalKey m.ty r ≤ totalKey m.ty c else totalKey m.ty c ≤ totalKey m.ty r

/-- The code of an element of D from its products in ascending order and its addend (R98 to R101). -/
def productCode (fa fb fc : Ty) (mode : Rnd) (sat : Bool) (ps : List Ext) (c : Ext) : Nat :=
  let f32 (v : Ext) : Ext := Ty.f32.decode (Ty.f32.round .rne false v)
  if fc = .i32 then pattern .i32 ((ps ++ [c]).map (Ext.units 0)).sum
  else if isNarrow fa = false then
    fc.round .rne sat (ps.foldl (fun acc p => fc.decode (fc.round mode false (Ext.sum (mode == .rdn) [p, acc]))) c)
  else
    let K := if fa = .f16 ∨ fa = .bf16 ∨ fb = .f16 ∨ fb = .bf16 then 8 else 16
    let acc := (List.range ((ps.length + K - 1) / K)).foldl (fun acc g =>
      f32 (Ext.sum false [acc, Ext.sum false ((ps.drop (g * K)).take K)])) c
    if fc = .f32 then Ty.f32.round .rne false acc else fc.round mode sat acc

/-- A factor negated where told to. -/
def negated (n : Bool) (v : Ext) : Ext := if n then v.neg else v

/-- The product register: element (i, j) from row i of A and column j of B, given as functions of k. -/
def productReg (x : Iss) (m : ModA) (rows cols k : Nat) (a b : Nat → Nat → Ext) (c : Nat → Nat → Ext) (pz : Bool) : MReg :=
  let fa := fmtTy x.f.p.fmt 27
  let fb := fmtTy x.f.p.fmt 22
  let fc := fmtTy x.f.p.fmt 17
  { rows := rows, cols := cols, tag := fc, pz := pz
    img := imageFrom fc rows cols (fun i j =>
      productCode fa fb fc (if m.rnd = .rfmt then fmtRnd x.f.p.fmt else m.rnd) m.sat
        ((List.range k).map (fun t => Ext.mul (negated (m.sub.getLsbD 2) (a i t)) (negated (m.sub.getLsbD 1) (b t j))))
        (if m.sub.getLsbD 0 then .fin false 0 0 else c i j)) }

/-- Element (i, j) of a matrix as an exact value. -/
def MReg.value (r : MReg) (i j : Nat) : Ext := imageElem r.tag r.img (i * r.cols + j)

/-- What a product does to the sample counter, and which measured element it carries (R104): none where telemetry is off or
the counter's new value is no multiple of 2^TELN. -/
def Sampled (s t : State) (x : Iss) (sample : Option (BitVec 256)) : Prop :=
  let count := (x.f.p.fmt.getLsbD 10) && (fmtTy x.f.p.fmt 17).isFloat
  let n : Word := (s.core x.f.core).sample.getD (x.f.slot / 16) 0 + 1
  t = (if count then s.updCore x.f.core (fun c => { c with sample := c.sample.put (x.f.slot / 16) n }) else s) ∧
    (sample ≠ none → count = true ∧ ∃ d, s.vds.look x.f.t.vd = some d ∧ n.toNat % 2 ^ (d.field 584 4 + 8) = 0)

/-- The conditions of `mld` and `mst` under a tag (R159). -/
def accessChecks (x : Iss) (l : Nat) (t : Ty) : List (Bool × Nat) :=
  let d := x.mat x.h.d l
  let strided := decide (x.val x.h.b .n32 l % 2 ^ 32 ≠ 0)
  [(d.void, 0), (strided && (t.isBlock || decide (d.cols * t.width % 8 ≠ 0) || (t.width == 6 && decide (d.cols % 4 ≠ 0))), 1)]

/-- The runs of bytes that a thread's `mld` or `mst` covers: offset and length of the image, or of each row (R159). -/
def runsOf (x : Iss) (l : Nat) (t : Ty) : List (Nat × Nat) :=
  let d := x.mat x.h.d l
  let a := x.val x.h.a .n32 l % 2 ^ 32
  let b := x.val x.h.b .n32 l % 2 ^ 32
  if b = 0 then [(a, t.imageBytes (d.rows * d.cols))]
  else (List.range d.rows).map (fun i => (a + i * b, d.cols * t.width / 8))

/-- A thread's `mld` or `mst` passes R156: offset and stride multiples of 4, every byte within the allocation. -/
def InBounds (x : Iss) (l : Nat) (t : Ty) : Prop :=
  x.val x.h.a .n32 l % 4 = 0 ∧ x.val x.h.b .n32 l % 4 = 0 ∧ ∀ r ∈ runsOf x l t, r.1 + r.2 ≤ x.f.t.decl.spad

/-- Nothing in flight holds a scratchpad read or write of the instruction's threads (R155, R198, R199, R229). -/
def MatFree (x : Iss) (s : State) : Prop := PrismFree x s ∧ s.acquiring x x.threads = false

/-- Index t of a lane's sparsity metadata (R149). -/
def sparseIndex (bs : List Byte) (t : Nat) : Nat := leNat bs / 16 ^ t % 16

/-! ### Lanes (R244, R264 to R273) -/

/-- PART.WIDTH of the issuing path. -/
def Iss.partW (x : Iss) : Nat := x.f.p.part.toNat % 2 ^ 6

/-- The executing threads of a lane's tile. -/
def Iss.sameTile (x : Iss) (l : Nat) : List Nat := x.lanes.filter (fun j => decide (j / x.partW = l / x.partW))

/-- Is A poisoned in some thread of a list? -/
def Iss.anyA (x : Iss) (e : List Nat) : Bool := e.any (fun j => x.f.b.poisoned x.e.a x.h.a j)

/-- The reduction of patterns of a type by an operation of R268: 0 add, 1 min, 2 max, 3 and, 4 or, 5 xor. -/
def Reduced (t : Ty) (sat : Bool) (op : Nat) (e : List Nat) (r : Nat) : Prop :=
  match op, t.isFloat with
  | 0, false => r = fitted t sat (e.map (asInt t)).sum
  | 0, true => r = t.round .rne sat (Ext.sum false (e.map t.decode))
  | 1, false => r ∈ e.map (· % 2 ^ t.width) ∧ ∀ c ∈ e, asInt t r ≤ asInt t c
  | 2, false => r ∈ e.map (· % 2 ^ t.width) ∧ ∀ c ∈ e, asInt t c ≤ asInt t r
  | 3, _ => ∀ k < t.width, r.testBit k = e.all (·.testBit k)
  | 4, _ => ∀ k < t.width, r.testBit k = e.any (·.testBit k)
  | 5, _ => ∀ k < t.width, r.testBit k = decide (e.countP (·.testBit k) % 2 = 1)
  | _, _ =>
    if ∀ c ∈ e, codeNan t c = true then r = t.nanCode
    else r ∈ e ∧ codeNan t r = false ∧ ∀ c ∈ e, codeNan t c = false →
      if op = 1 then totalKey t r ≤ totalKey t c else totalKey t c ≤ totalKey t r

/-- Does logit i rank before logit j (R272)? -/
def ranksBefore (v : Nat → Ext) (i j : Nat) : Bool :=
  (!(v i).isNan && (v j).isNan) || Ext.lt (v j) (v i) ||
    ((((v i).isNan && (v j).isNan) || Ext.eq (v i) (v j)) && decide (i < j))

/-! ### Scratchpad and atomics (R177, R209 to R217) -/

/-- The scratchpad offset of an executing thread. -/
def Iss.spadAt (x : Iss) (l : Nat) : Nat := x.val x.h.a .n32 l % 2 ^ 32

/-- A lane's access of n bytes passes R177. -/
def SpadOk (x : Iss) (n l : Nat) : Prop := x.spadAt l % n = 0 ∧ x.spadAt l + n ≤ x.f.t.decl.spad

/-- The bytes of eight that an executing thread still has as they were (R176, R200). -/
def State.olderOf (s : State) (x : Iss) (l g : Nat) : Option Older :=
  (s.core x.f.core).older.find? (fun e =>
    e.spad && e.slot == x.f.slot && e.thread == (if x.h.uni then 32 else l) && e.gran == g)

/-- A byte of the scratchpad, and the mark of its word, as a relaxed load of an executing thread reads it (R176, R200). -/
def State.spadSeen (s : State) (x : Iss) (l a : Nat) : Byte × Bool :=
  match s.olderOf x l (a / 8) with
  | some e => (e.data[a % 8]?.getD 0, e.pz)
  | none => (Memory.read x.f.t.spad a, x.f.t.spadPz.contains (a / 8))

/-- The issuing beam has no bytes any longer as they were of the words that n bytes of an executing thread touch (R198). -/
def State.givenUp (s : State) (x : Iss) (n : Nat) : State :=
  s.updCore x.f.core (fun c => { c with older := c.older.filter (fun e =>
    !(e.slot == x.f.slot && e.spad && decide (∃ l ∈ x.lanes, e.thread = (if x.h.uni then 32 else l) ∧
      8 * e.gran < x.spadAt l + n ∧ x.spadAt l < 8 * e.gran + 8))) })

/-- The scratchpad-access fault of a lane (R156, R177). -/
def spadTrap (x : Iss) (l : Nat) (n : Nat) : Trap :=
  { cause := 0x06, lane := l
    addr := BitVec.ofNat 64 (if x.spadAt l % n ≠ 0 then x.spadAt l else max (x.spadAt l) x.f.t.decl.spad) }

/-- The new value that an atomic forms (R216). -/
def atomResult (t : Ty) (op : AtomOp) (old b c : Nat) : Nat :=
  match op with
  | .add => if t.isFloat then t.round .rne false (Ext.sum false [t.decode old, t.decode b]) else (old + b) % 2 ^ t.width
  | .min => if asInt t old ≤ asInt t b then old else b
  | .max => if asInt t b ≤ asInt t old then old else b
  | .and => Nat.land old b
  | .or => Nat.lor old b
  | .xor => Nat.xor old b
  | .swap => b
  | .cswap => if old = c then b else old
  | .fmin => if codeNan t b then old else if codeNan t old then b else if valueKey t b < valueKey t old then b else old
  | .fmax => if codeNan t b then old else if codeNan t old then b else if valueKey t old < valueKey t b then b else old

/-! ### Global memory (R180 to R189, R342 to R347) -/

/-- Do n bytes at a physical address lie in one of the places of R342: resident segments, the anchor, a pooled range, or a
shared pooled range granted, whose grant is not being revoked? -/
def Reachable (s : State) (v : Nat) (d : VDev) (a n : Nat) : Prop :=
  (0 < n ∧ ∀ b, a ≤ b → b < a + n → b / 2 ^ 30 ∈ d.segments) ∨
  (v * 2 ^ 21 ≤ a ∧ a + n ≤ (v + 1) * 2 ^ 21) ∨
  (∃ r ∈ d.pools, r.1 ≤ a ∧ a + n ≤ r.1 + r.2) ∨
  (∃ e ∈ s.mgmt.shared, e.2.base ≤ a ∧ a + n ≤ e.2.base + e.2.gib * 2 ^ 30 ∧ (e.2.grants.look v).isSome ∧
    ∀ i ∈ s.mgmt.invals, i.vd = v → i.range ≠ some e.1)

/-- The rights of a leaf allow an access (R347). -/
def Allows (leaf : Nat) (need : Rights) : Prop :=
  (need.r = true → leaf.testBit 2) ∧ (need.w = true → leaf.testBit 3) ∧ (need.a = true → leaf.testBit 4) ∧
    (need.h = true → leaf.testBit 5)

/-- The global address of `lda` and `str` (R209). -/
def Iss.globalAt (x : Iss) (l : Nat) : Nat :=
  pattern .n64 ((x.val x.h.a .n64 l : Int) + if x.h.b = .none then 0 else x.bInt .i32 l)

/-- One lane of a global load, store or atomic: its address, data and mark. -/
def wantLoad (x : Iss) (l : Nat) : Want := { lane := l, va := x.globalAt l }

/-- One lane of a global store. -/
def wantStore (wide : Bool) (x : Iss) (l : Nat) : Want :=
  { lane := l, va := x.globalAt l, val := x.val x.h.d (if wide then .n64 else .n32) l, pz := x.f.b.poisoned x.e.d x.h.d l }

/-- One lane of a global atomic. -/
def wantAtomic (t : Ty) (x : Iss) (l : Nat) : Want :=
  { lane := l, va := x.val x.h.a .n64 l, val := x.elem x.h.b t l, cmp := x.elem x.h.c t l }

/-- The lanes of an access that this package performs. -/
def GOp.here (g : GOp) : List LaneAcc := g.lanes.filter (fun a => a.dev == 0)

/-- A beam after something that it waits for: only what it sleeps in or drains for may have changed, and it sleeps as before unless a
barrier has woken it. -/
def Beam.onlyWaits (b b' : Beam) : Prop :=
  b' = { b with drain := b'.drain, sleep := b'.sleep, handler := b'.handler } ∧
    (b'.sleep = b.sleep ∨ (b'.sleep = .ready ∧ ∃ k, b.sleep = .bar k ∨ b.sleep = .cbar k)) ∧
    (b'.handler = b.handler ∨ ∃ h k, b.handler = some h ∧ (h.sleep = .bar k ∨ h.sleep = .cbar k) ∧
      b'.handler = some { h with sleep := .ready })

/-- Is a number that of a thread in whose program order a synchronisation instruction stands: one of its path's, or the uniform thread,
numbered 32 (R195)? -/
def Iss.onPath (x : Iss) (t : Nat) : Prop := t = 32 ∨ x.f.p.mask.getLsbD t = true

/-- An access in flight that comes before the instruction in the program order of its path: one of its threads made it, or it has been
joined to one of them (R195). -/
def Early (s : State) (x : Iss) (g : GOp) : Prop :=
  g ∈ s.gops ∧ g.beam = x.ref ∧ g.settled = false ∧
    ((∃ a ∈ g.lanes, x.onPath a.lane) ∨ ∃ t, x.onPath t ∧ g.id ∈ x.f.b.joined.getD t [])

/-- A marked read of the path has still to fill its destination (R229). -/
def ReadsDue (s : State) (x : Iss) : Prop := ∃ f ∈ s.fills, f.beam = x.ref ∧ ∃ t ∈ f.reads, x.onPath t

/-- Every beam that stood still stands, and only what it waits for may have changed. -/
def SameBeams (s t : State) : Prop :=
  ∀ core slot b, s.beam? core slot = some b → ∃ b', t.beam? core slot = some b' ∧ b.onlyWaits b'

/-- A lane's access finds what it needs at hand: it is aligned, its translation is in the core's cache and allows it, the bytes of an
atomic lie in no poisoned line and behind no shut port, and no poison would leave the virtual device (R192, R194, R220, R386). -/
def AtHand (s : State) (x : Iss) (n : Nat) (need : Rights) (atomic : Bool) (w : Want) : Prop :=
  w.va % n = 0 ∧ w.va < 2 ^ 56 ∧ ∃ t, cached (s.core x.f.core).tlb x.f.t.vd w.va = some t ∧
    match s.place x.f.t.vd t w.va n need with
    | .here pa => (w.pz = true → s.granted x.f.t.vd pa n = false) ∧ (atomic = true → s.shut pa = false ∧ s.linePoisoned pa n = false)
    | .peer _ => w.pz = false
    | .fail _ => False

/-- Only the bytes of lines found lost behind a shut port may read otherwise: they read zero, and their lines are poisoned (R353,
R383). -/
def OnlyLost (s t : State) : Prop :=
  ∀ b, Memory.read t.mem b = Memory.read s.mem b ∨
    (Memory.read t.mem b = 0 ∧ b / 64 ∈ t.linePz ∧ ∃ a, s.shut a = true ∧ a / 64 = b / 64)

/-- What is in flight and every beam are as they were. -/
def SameFlight (s t : State) : Prop :=
  t.gops = s.gops ∧ t.fills = s.fills ∧ t.copies = s.copies ∧ ∀ core slot, t.beam? core slot = s.beam? core slot

/-- The status word of a lane copy (R186). -/
def laneStatus (code pz va : Nat) : List Cell32 :=
  let v := if code = 0 then 16 * pz else code + 256 * (va % 2 ^ 56)
  [{ val := BitVec.ofNat 32 v }, { val := BitVec.ofNat 32 (v / 2 ^ 32) }]

/-- The status of a row of a lane copy: its failure, the receiver's refusal, or complete with the poisoned lines read. -/
def rowStatus (refused : List Nat) (r : Row) : List Cell32 :=
  match r.st with
  | .failed code _ => laneStatus code 0 r.va
  | .ready ps => if refused.contains r.key then laneStatus 4 0 r.va else laneStatus 0 (if ps.any (·.pz) then 1 else 0) r.va
  | .walking _ _ _ => []

/-! ### Special registers and directories (R30, R304) -/

/-- The words of a special register as a thread reads it (R374); those of `%cyc` are a free reading of the counter. -/
def Iss.specialWords (x : Iss) (l : Nat) : Spr → List Word
  | .tid => [BitVec.ofNat 32 (32 * x.f.b.idx + l)]
  | .lane => [BitVec.ofNat 32 l]
  | .beam => [BitVec.ofNat 32 x.f.b.idx]
  | .team => [BitVec.ofNat 32 x.f.t.index]
  | .core => [BitVec.ofNat 32 x.f.core]
  | .cyc => []
  | .ext0 => [x.f.t.ext[0]?.getD 0]
  | .ext1 => [x.f.t.ext[1]?.getD 0]
  | .ext2 => [x.f.t.ext[2]?.getD 0]
  | .emask => [x.f.b.emask]
  | .ekind => [x.f.b.ekind.getD l 0]
  | .tcause => [x.f.b.tcause]
  | .tpc => [x.f.b.tpc]
  | .taddr => [BitVec.ofNat 32 x.f.b.taddr.toNat, BitVec.ofNat 32 (x.f.b.taddr.toNat / 2 ^ 32)]
  | .part => [x.f.p.part]
  | .fmt => [x.f.p.fmt]

/-- Values as registers without a mark. -/
def clean (ws : List Word) : List Cell32 := ws.map (fun w => { val := w })

/-- The first words of a number, lowest first. -/
def wordsIn (n v : Nat) : List Word := (List.range n).map (fun k => BitVec.ofNat 32 (v / 2 ^ (32 * k)))

/-- The index that a thread gives a directory instruction. -/
def Iss.dirIndex (x : Iss) (l : Nat) : Nat := x.val x.h.a .n32 l % 256

/-- The directory entry at an index of the issuing core. -/
def State.entryAt (s : State) (x : Iss) (i : Nat) : DirEntry := (s.core x.f.core).entry i

/-- May a thread of a responder beam respond (R325): it is a responder that has not, and no lower thread stands for the same one? -/
def mayRespond (s : State) (x : Iss) (l : Nat) : Prop :=
  ∃ slot id r, x.f.t.census = some slot ∧ x.f.t.lanes[l]? = some id ∧ s.respOf x.f.t.vd slot id = some r ∧ r.closed = false ∧
    ∀ j ∈ x.lanes, j < l → x.f.t.lanes[j]? ≠ some id

/-! ### Paths (R238 to R243) -/

/-- A path stands under an entry of the stack: the entry is its top entry or one above that (R239). -/
def Flow.Under (f : Flow) (q : Path) (e : Nat) : Prop := e ∈ f.chain q.top

/-- A path is parked at an entry. -/
def Path.AtEntry (q : Path) (e : Nat) : Prop := q.st = .parked ∧ q.top = some e

/-- A flow between two instructions: one path runs, and no entry can pop, since each holds back a thread (R238, R241). -/
def Flow.Quiet (f : Flow) (p : Path) : Prop :=
  f.run = some p ∧ p.mask ≠ 0 ∧ (∀ q ∈ f.paths, q.st = .running → q = p) ∧
    ∀ x ∈ f.stack, ∃ q ∈ f.paths, f.Under q x.1 ∧ ¬q.AtEntry x.1

/-- In g the oldest suspended path of f runs; where f has none, g is f (R242). -/
def Flow.Elects (f g : Flow) : Prop :=
  (∀ a, (∃ q ∈ f.paths, q.st = .suspended a) → (∀ q b, q ∈ f.paths → q.st = .suspended b → a ≤ b) →
    g = { f with paths := f.paths.map (fun q => if q.st = .suspended a then { q with st := .running } else q) }) ∧
  ((∀ q ∈ f.paths, ∀ a, q.st ≠ .suspended a) → g = f)

/-- Where every other thread under an entry is parked at it, the entry pops: the path of the parked threads, and of those of `extra`,
runs at ADDR with the entry's FMT, PART and parent, if it does not park at the parent at once (R241, R242). -/
def Flow.Releases (f : Flow) (e : Nat) (y : StackEntry) (extra : Word) (g : Flow) : Prop :=
  (∀ r ∈ f.others, f.Under r e → r.AtEntry e) → (∀ d ∈ f.stack, d.2.parent ≠ some e) →
    (∀ d z, y.parent = some d → f.stack.look d = some z → z.call = true ∨ z.addr ≠ y.addr) →
    (extra ≠ 0 ∨ ∃ r ∈ f.others, r.AtEntry e ∧ r.mask ≠ 0) →
    ∃ m : Word, g.run = some { mask := m, pc := y.addr, fmt := y.fmt, part := y.part, top := y.parent, st := .running } ∧
      g.stack = f.stack.del e ∧
      ∀ k, m.getLsbD k = true ↔ extra.getLsbD k = true ∨ ∃ r ∈ f.others, r.AtEntry e ∧ r.mask.getLsbD k = true

/-- The running path has come to its entry as `back`, which parks: the oldest suspended path runs while the entry holds back a thread,
and otherwise the entry releases its threads (R241, R242). -/
def Flow.Meets (f : Flow) (e : Nat) (y : StackEntry) (back : Path) (g : Flow) : Prop :=
  ((∃ r ∈ f.others, f.Under r e ∧ ¬r.AtEntry e) → Flow.Elects { f with paths := f.others ++ [back] } g) ∧
    f.Releases e y back.mask g

/-- The running path has gone on as q: it runs there, unless q stands at the ADDR of its top entry, a joinat entry (R241). -/
def Flow.Arrives (f : Flow) (q : Path) (g : Flow) : Prop :=
  (f.parksHere q = false → g = { f with paths := f.others ++ [q] }) ∧
    ∀ e y, q.top = some e → f.stack.look e = some y → y.call = false → y.addr = q.pc → f.Meets e y { q with st := .parked } g

/-- The whole running path p has jumped to an address: it goes on there, but a backward jump inside the overlay hands the beam to the
oldest suspended path, where there is one (R243). -/
def Flow.Jumps (f : Flow) (p : Path) (t : Word) (inside : Bool) (g : Flow) : Prop :=
  let back : Prop := inside = true ∧ t.toNat % 2 ^ 13 ≤ p.pc.toNat % 2 ^ 13 ∧ f.parksHere { p with pc := t } = false ∧
    ∃ q ∈ f.paths, ∃ a, q.st = .suspended a
  (¬back → f.Arrives { p with pc := t } g) ∧
    (back → Flow.Elects { f with paths := f.others ++ [{ p with pc := t, st := .suspended (f.ages + 1) }], ages := f.ages + 1 } g)

/-! ### Queues and management -/

/-- The thread of a queue reads a packet at HEAD: the queue runs, is mapped and not blocked, no launch of it waits for dispatch, no port
holds the reads, and TAIL is ahead by no more than the ring holds (R283, R392). -/
def ReadsPacket (s : State) (v q : Nat) (d : VDev) (x : Queue) (p : Nat) : Prop :=
  s.vds.look v = some d ∧ d.queues.look q = some x ∧ d.reads q x = true ∧ s.ringHeld v x = false ∧
    (∃ t, s.tail v x = some t ∧ t ≠ x.head ∧ (t + 2 ^ 64 - x.head) % 2 ^ 64 ≤ 2 ^ x.log2n) ∧
    (s.saw v (x.desc + 24) 8).packetAt v x = .ok p

/-- The queue after a packet has been consumed. -/
def Queue.past (x : Queue) : Queue := { x with head := (x.head + 1) % 2 ^ 64 }

/-- A binary operation of a shape expression, a op b: none for cdiv by zero and for codes that are reserved (R287). -/
def shapeBinary (op a b : Nat) : Option Nat :=
  match op with
  | 3 => some ((a + b) % 2 ^ 64)
  | 4 => some (((a : Int) - b) % 2 ^ 64).toNat
  | 5 => some (a * b % 2 ^ 64)
  | 6 => if b = 0 then none else some (a / b + if a % b = 0 then 0 else 1)
  | 7 => some (min a b)
  | 8 => some (max a b)
  | 9 => some (Nat.shiftLeft a (b % 64) % 2 ^ 64)
  | 10 => some (Nat.shiftRight a (b % 64))
  | 11 => some (Nat.land a b)
  | _ => none

/-- Bits of a packet or request. -/
def slice (p lo n : Nat) : Nat := p / 2 ^ lo % 2 ^ n

/-- Only the bytes of a range may read otherwise. -/
def SameOutside (s t : State) (a n : Nat) : Prop := ∀ b, b < a ∨ a + n ≤ b → Memory.read t.mem b = Memory.read s.mem b

/-- A request reaches its operation: it comes on the management path, its sender may ask, and its header and payload length are
those of the operation (R355 to R357). -/
def Served (s : State) (r : MReq) (op : Nat) (may : Bool) (fields : List (Nat × Nat)) : Prop :=
  reqOp r = op ∧ s.onPath r = true ∧ may = true ∧ reqShape r fields = true

/-- The request is carried out with a state to which its response is then added. -/
def Carried (i : Instr) (s : State) (r : MReq) (p : Reply) (P : State → Prop) : Prop :=
  ∃ u, exec i s = .next (u.reply r p) ∧ P u

/-- The state differs in the management processor's part only. -/
def OnlyMgmt (s u : State) : Prop := u = { s with mgmt := u.mgmt }

/-- The state differs in virtual devices only, and only in the given one. -/
def OnlyVd (s u : State) (v : Nat) : Prop := u = { s with vds := u.vds } ∧ ∀ k, k ≠ v → u.vds.look k = s.vds.look k

end Sys2Proof.Machine
end

