-- ==== Sys2Proof/Certificates/Slice0/Obligations.lean ====
section
/-!
DEFINITION. The statements for the provers. The words they are stated in are those of Sys2Proof/Safety.lean.
-/
open Sys2Proof
open Sys2Proof.Machine

/-! ### Integers (group 0x0) -/

/-- For every head and modifiers, and every state in which the instruction passes the checks at issue, add writes fit(T, a
+ b + c), sub fit(T, a - b), addc floor((a + b + (c mod 2)) / 2^w) as a 32-bit value that is 0 or 1, mul fit(T, a *
b), mulhi floor(a * b / 2^w) mod 2^w, and mad fit(T, a * b + c), with c = 0 where C is none; the result is in D at
once and the selector takes effect. (R113) -/
def Obligations.IntegerSumsAndProducts : Prop :=
  ∀ (h : Head) (m : ModA),
    Sets (.add h m) m.ty (fun x l => fitted m.ty m.sat (x.aInt m.ty l + x.bInt m.ty l + x.cInt m.ty l)) ∧
    Sets (.sub h m) m.ty (fun x l => fitted m.ty m.sat (x.aInt m.ty l - x.bInt m.ty l)) ∧
    SetsSuch (.addc h m) .n32 (fun x l r =>
      r ≤ 1 ∧ (r : Int) = (x.aInt m.ty l + x.bInt m.ty l + x.cInt m.ty l % 2) / 2 ^ m.ty.width) ∧
    Sets (.mul h m) m.ty (fun x l => fitted m.ty m.sat (x.aInt m.ty l * x.bInt m.ty l)) ∧
    Sets (.mulhi h m) m.ty (fun x l => pattern m.ty (x.aInt m.ty l * x.bInt m.ty l / 2 ^ m.ty.width)) ∧
    Sets (.mad h m) m.ty (fun x l => fitted m.ty m.sat (x.aInt m.ty l * x.bInt m.ty l + x.cInt m.ty l))

/-- For every state in which the instruction passes the checks at issue, div and rem empty D and put in flight: for b = 0,
all ones and a; for signed a = -2^(w-1) and b = -1, -2^(w-1) (2^(w-1) - 1 under .sat) and 0; otherwise the quotient of
a by b truncated toward zero and the remainder with the sign of a. No case traps: the step always answers a next state
in which the selector has taken effect. (R114) -/
def Obligations.DivisionTruncates : Prop :=
  ∀ (h : Head) (m : ModA),
    SendsSuch (.div h m) m.ty (fun x l r =>
      let a := x.aInt m.ty l
      let b := x.bInt m.ty l
      if b = 0 then r = 2 ^ m.ty.width - 1
      else if m.ty.signed ∧ a = -2 ^ (m.ty.width - 1) ∧ b = -1 then
        r = if m.sat then 2 ^ (m.ty.width - 1) - 1 else 2 ^ (m.ty.width - 1)
      else ∃ q y, Truncates a b q y ∧ r = pattern m.ty q) ∧
    SendsSuch (.rem h m) m.ty (fun x l r =>
      let a := x.aInt m.ty l
      let b := x.bInt m.ty l
      if b = 0 then r = pattern m.ty a
      else if m.ty.signed ∧ a = -2 ^ (m.ty.width - 1) ∧ b = -1 then r = 0
      else ∃ q y, Truncates a b q y ∧ r = pattern m.ty y)

/-- Where the instruction passes the checks at issue: min and max write the lesser and greater of val(T, A) and val(T, B);
abs and neg write fit(T, |a|) and fit(T, -a); shl, shr, sar and rot take their count n from B as an unsigned 32-bit
value, under every type, and bit k of the result is, within w, bit k - n of a (0 below n), bit k + n of a (0 from w
on), bit min(k + n, w - 1) of a, and bit (k - n) mod w of a. (R115, R117) -/
def Obligations.OrderAndShifts : Prop :=
  ∀ (h : Head) (m : ModA),
    Sets (.min h m) m.ty (fun x l => pattern m.ty (if x.aInt m.ty l ≤ x.bInt m.ty l then x.aInt m.ty l else x.bInt m.ty l)) ∧
    Sets (.max h m) m.ty (fun x l => pattern m.ty (if x.aInt m.ty l ≤ x.bInt m.ty l then x.bInt m.ty l else x.aInt m.ty l)) ∧
    Sets (.abs h m) m.ty (fun x l => fitted m.ty m.sat (if x.aInt m.ty l < 0 then -x.aInt m.ty l else x.aInt m.ty l)) ∧
    Sets (.neg h m) m.ty (fun x l => fitted m.ty m.sat (-x.aInt m.ty l)) ∧
    SetsSuch (.shl h m) m.ty (fun x l r =>
      HasBits m.ty r (fun k => decide (x.bCount l ≤ k) && x.aBit m.ty l (k - x.bCount l))) ∧
    SetsSuch (.shr h m) m.ty (fun x l r => HasBits m.ty r (fun k => x.aBit m.ty l (k + x.bCount l))) ∧
    SetsSuch (.sar h m) m.ty (fun x l r => HasBits m.ty r (fun k => x.aBit m.ty l (min (k + x.bCount l) (m.ty.width - 1)))) ∧
    SetsSuch (.rot h m) m.ty (fun x l r =>
      HasBits m.ty r (fun k => x.aBit m.ty l ((k + (m.ty.width - x.bCount l % m.ty.width)) % m.ty.width)))

/-- Where the instruction passes the checks at issue: clz and ctz write the number of leading and trailing zero bits of a
within w (w for a = 0) and popc the number of one bits, as 32-bit values; bit k of brev is bit w - 1 - k of a; with
pos = B[7:0] and len = min(C[7:0], w), bfx writes 0 for len = 0 and otherwise bits pos + k of a for k below len (0
from w on), extended by bit len - 1 of the field under a signed type and by 0 otherwise; bfi writes D with bits pos +
k, below w, replaced by bits k of A for k below len. (R118) -/
def Obligations.BitCountsAndFields : Prop :=
  ∀ (h : Head) (m : ModA),
    SetsSuch (.clz h m) .n32 (fun x l r =>
      r ≤ m.ty.width ∧ (∀ k < r, x.aBit m.ty l (m.ty.width - 1 - k) = false) ∧
        (r < m.ty.width → x.aBit m.ty l (m.ty.width - 1 - r) = true)) ∧
    SetsSuch (.ctz h m) .n32 (fun x l r =>
      r ≤ m.ty.width ∧ (∀ k < r, x.aBit m.ty l k = false) ∧ (r < m.ty.width → x.aBit m.ty l r = true)) ∧
    SetsSuch (.popc h m) .n32 (fun x l r => r = (List.range m.ty.width).countP (fun k => x.aBit m.ty l k)) ∧
    SetsSuch (.brev h m) m.ty (fun x l r => HasBits m.ty r (fun k => x.aBit m.ty l (m.ty.width - 1 - k))) ∧
    SetsSuch (.bfx h m) m.ty (fun x l r =>
      let pos := x.bCount l % 256
      let len := min (x.cCount l % 256) m.ty.width
      HasBits m.ty r (fun k =>
        if k < len then x.aBit m.ty l (pos + k)
        else decide (0 < len) && m.ty.signed && x.aBit m.ty l (pos + (len - 1)))) ∧
    SetsSuch (.bfi h m) m.ty (fun x l r =>
      let pos := x.bCount l % 256
      let len := min (x.cCount l % 256) m.ty.width
      HasBits m.ty r (fun k =>
        if pos ≤ k ∧ k < pos + len then x.aBit m.ty l (k - pos) else (x.val x.h.d m.ty l).testBit k))

/-- Where the instruction passes the checks at issue: and, or, xor and andn act on each of the w bits, or on truth values
where D is a predicate; lea writes (a + ext(b) * 2^s) mod 2^64, s the low 3 bits of C; sel writes A where the
predicate C is true and B otherwise; cmp sets its predicate to the comparison of val(T, A) with val(T, B) that SUB
names; mov copies bits or a predicate; movi writes IMM sign-extended; movh replaces bits 31 to 20 of D by IMM[11:0];
ext extends the low w bits of A by its type's signedness to 32 bits, or to 64 where w = 32. That the scale of lea is
the low 3 bits of C for an immediate C outside 0 to 7 too is the model's choice (entry 23 of the log). (05_alu_isa.md,
R116, R119, R120, R121) -/
def Obligations.LogicSelectsAndMoves : Prop :=
  ∀ (h : Head) (m : ModA),
    (∀ i ∈ [(Instr.and h m, fun a b : Bool => a && b), (.or h m, fun a b => a || b), (.xor h m, fun a b => a != b),
        (.andn h m, fun a b => a && !b)],
      (h.d.isPred = true → SetsPred i.1 (fun x l => i.2 (x.val x.h.a .i32 l == 1) (x.val x.h.b .i32 l == 1))) ∧
      (h.d.isPred = false → SetsSuch i.1 m.ty (fun x l r =>
        HasBits m.ty r (fun k => i.2 (x.aBit m.ty l k) ((x.val x.h.b m.ty l).testBit k))))) ∧
    Sets (.lea h m) .n64 (fun x l =>
      pattern .n64 (x.val x.h.a .n64 l + (if m.ty = .i32 then x.bInt .i32 l else x.bInt .n32 l) * 2 ^ (x.cCount l % 8))) ∧
    Sets (.sel h m) m.ty (fun x l => if x.val x.h.c .i32 l = 1 then x.val x.h.a m.ty l else x.val x.h.b m.ty l) ∧
    SetsPred (.cmp h m) (fun x l =>
      let a := x.aInt m.ty l
      let b := x.bInt m.ty l
      match m.sub.toNat with
      | 0 => decide (a = b)
      | 1 => decide (a ≠ b)
      | 2 => decide (a < b)
      | 3 => decide (a ≤ b)
      | 4 => decide (a > b)
      | _ => decide (a ≥ b)) ∧
    (h.d.isPred = true → SetsPred (.mov h m) (fun x l => x.val x.h.a .i32 l == 1)) ∧
    (h.d.isPred = false → Sets (.mov h m) m.ty (fun x l => x.val x.h.a m.ty l)) ∧
    Sets (.movi h m) m.ty (fun x _ => pattern m.ty x.h.imm.toInt) ∧
    Sets (.movh h m) .i32 (fun x l => x.val x.h.d .i32 l % 2 ^ 20 + 2 ^ 20 * (x.h.imm.toNat % 2 ^ 12)) ∧
    Sets (.ext h m) (if m.ty.width = 32 then .n64 else .n32) (fun x l =>
      pattern (if m.ty.width = 32 then .n64 else .n32) (asInt m.ty (x.val x.h.a .n32 l)))

/-! ### Floating point (groups 0x1 and 0x2) -/

/-- For every floating format, every one of the five modes, and every exact value whose magnitude does not exceed the
format's largest finite value, the code that rounding gives is finite and keeps the value's sign; its value is the
exact value where the format holds it, and otherwise a neighbour of it with no value of the format between: the nearer
one under rne and rna (on a tie the even code, or the one of larger magnitude), the one of smaller magnitude under
rtz, the lower under rdn, the upper under rup. A value beyond the largest finite one gives that one where the exponent
range, taken as unbounded, puts it nearer under rne and rna than the next value, or on a tie under rne with an even
code; otherwise it overflows: to the infinity, the E4M3 NaN or the largest finite value that R93 gives. An infinity
gives the infinity, the E4M3 NaN, or under saturation and in FP6 and FP4 the largest; a NaN gives the canonical NaN,
and in FP6 and FP4 the code of +largest. (04_formats.md, R82, R91, R93, R94) -/
def Obligations.RoundingChoosesTheNeighbour : Prop :=
  ∀ (t : Ty) (mode : Rnd) (sat neg : Bool) (m : Nat) (e : Int), t.isFloat = true → mode ∈ modes →
    let x := Ext.fin neg m e
    let top := numberOf (t.decode t.largest)
    ((numberOf x).abs ≤ top →
      RoundsTo t mode (numberOf x) (t.round mode sat x) ∧
        (t.round mode sat x).testBit (t.width - 1) = neg) ∧
    (top < (numberOf x).abs →
      let nearest : Bool := mode == .rne || mode == .rna
      let toInf := (nearest || (mode == .rdn && neg) || (mode == .rup && !neg)) && !sat
      let sign := if neg then 2 ^ (t.width - 1) else 0
      let gap := top - numberOf (t.decode (t.largest - 1))
      let past := 2 * ((numberOf x).abs - top)
      t.round mode sat x =
        if nearest = true ∧ (past < gap ∨ past = gap ∧ mode = .rne ∧ t.largest % 2 = 0) then sign + t.largest
        else if toInf && t.ieee then sign + t.largest + 1
        else if toInf && t == .e4m3 then 0x7F
        else sign + t.largest) ∧
    t.round mode sat (.inf neg) = (
      let sign := if neg then 2 ^ (t.width - 1) else 0
      if t.ieee && !sat then sign + t.largest + 1
      else if t == .e4m3 && !sat then 0x7F
      else sign + t.largest) ∧
    t.round mode sat .nan = (match t with
      | .f64 => 0x7FF8_0000_0000_0000
      | .f32 => 0x7FC0_0000
      | .f16 => 0x7E00
      | .bf16 => 0x7FC0
      | .e4m3 => 0x7F
      | .e5m2 => 0x7E
      | .e3m2 | .e2m3 => 0x1F
      | _ => 0x7)

/-- For every floating format, a code with sign s, exponent field e and mantissa field m that the format does not assign
specially has the value (-1)^s * 2^(e - bias) * (1 + m / 2^M), or (-1)^s * 2^(1 - bias) * m / 2^M for e = 0. The exact
product and the exact sum of finite values are finite and have the product and the sum as their number; 0 times an
infinity, a NaN term, and two infinities of unlike sign give NaN; an infinite term otherwise gives the sum its
infinity; an exact zero sum is minus zero where every term is -0, or where the zero sign asked for is minus and some
term is negative. (04_formats.md, R81, R94, R99, R102) -/
def Obligations.ExactArithmetic : Prop :=
  (∀ (t : Ty) (s e m : Nat), t.isFloat = true → s < 2 → e < 2 ^ t.ebits → m < 2 ^ t.mant →
    (t.ieee = true → e ≠ 2 ^ t.ebits - 1) → (t = .e4m3 → ¬(e = 15 ∧ m = 7)) →
    let c := s * 2 ^ (t.ebits + t.mant) + e * 2 ^ t.mant + m
    c < 2 ^ t.width ∧ finite (t.decode c) = true ∧
    numberOf (t.decode c) =
      (-1) ^ s * (if e = 0 then 2 ^ (1 - (t.bias : Int)) * ((m : Rat) / 2 ^ t.mant)
        else 2 ^ ((e : Int) - t.bias) * (1 + (m : Rat) / 2 ^ t.mant))) ∧
  (∀ a b : Ext, finite a = true → finite b = true →
    finite (Ext.mul a b) = true ∧ numberOf (Ext.mul a b) = numberOf a * numberOf b ∧
      (Ext.mul a b).sign = (a.sign != b.sign)) ∧
  (∀ (s : Bool) (a : Ext), Ext.mul (.inf s) a = (if a.isNan || a.isZero then .nan else .inf (s != a.sign)) ∧
    Ext.mul a (.inf s) = (if a.isNan || a.isZero then .nan else .inf (s != a.sign)) ∧ Ext.mul .nan a = .nan ∧
    Ext.mul a .nan = .nan) ∧
  (∀ (z : Bool) (ts : List Ext), (∀ t ∈ ts, finite t = true) →
    finite (Ext.sum z ts) = true ∧ numberOf (Ext.sum z ts) = (ts.map numberOf).sum ∧
    (numberOf (Ext.sum z ts) = 0 → (Ext.sum z ts).sign =
      (!ts.isEmpty && ts.all (fun t => t.isZero && t.sign) || (z && ts.any (·.sign))))) ∧
  (∀ (z : Bool) (ts : List Ext),
    ((.nan ∈ ts ∨ (.inf true ∈ ts ∧ .inf false ∈ ts)) → Ext.sum z ts = .nan) ∧
    (∀ s, .nan ∉ ts → .inf s ∈ ts → .inf (!s) ∉ ts → Ext.sum z ts = .inf s))

/-- Where the instruction passes the checks at issue, each executing thread's result is round_to of the exact a + b, a -
b, a * b, a * b + c, or a * 2^val(.i32, B) in the word's mode and saturation, an exact zero sum being -0 under rdn;
frint gives rint(mode, a) as a value of the type with the sign of a; fscale and frint return a NaN as NaN and an
infinity and a zero unchanged but for saturation. (05_alu_isa.md, R92, R123) -/
def Obligations.FloatArithmeticRoundsOnce : Prop :=
  ∀ (h : Head) (m : ModA),
    let a (x : Iss) (l : Nat) : Ext := m.ty.decode (x.elem x.h.a m.ty l)
    let b (x : Iss) (l : Nat) : Ext := m.ty.decode (x.elem x.h.b m.ty l)
    let c (x : Iss) (l : Nat) : Ext := m.ty.decode (x.elem x.h.c m.ty l)
    let down := m.rnd == .rdn
    Sets (.fadd h m) m.ty (fun x l => m.ty.round m.rnd m.sat (Ext.sum down [a x l, b x l])) ∧
    Sets (.fsub h m) m.ty (fun x l => m.ty.round m.rnd m.sat (Ext.sum down [a x l, (b x l).neg])) ∧
    Sets (.fmul h m) m.ty (fun x l => m.ty.round m.rnd m.sat (Ext.mul (a x l) (b x l))) ∧
    Sets (.fma h m) m.ty (fun x l => m.ty.round m.rnd m.sat (Ext.sum down [Ext.mul (a x l) (b x l), c x l])) ∧
    Sets (.fscale h m) m.ty (fun x l => m.ty.round m.rnd m.sat ((a x l).scale (x.bInt .i32 l))) ∧
    Sets (.frint h m) m.ty (fun x l =>
      match a x l with
      | .fin neg n e => m.ty.round m.rnd m.sat (.fin neg (rintMag m.rnd neg n e) 0)
      | v => m.ty.round m.rnd m.sat v) ∧
    (∀ mode ∈ modes, ∀ (neg : Bool) (n : Nat) (e : Int),
      let y : Rat := n * 2 ^ e
      let q : Rat := rintMag mode neg n e
      (q - y).abs < 1 ∧
      match mode with
      | .rtz => q ≤ y
      | .rdn => if neg then y ≤ q else q ≤ y
      | .rup => if neg then q ≤ y else y ≤ q
      | .rna => (q - y).abs ≤ 1 / 2 ∧ ((q - y).abs = 1 / 2 → y ≤ q)
      | _ => (q - y).abs ≤ 1 / 2 ∧ ((q - y).abs = 1 / 2 → rintMag mode neg n e % 2 = 0))

/-- Where the instruction passes the checks at issue: fmin, fmax, fminm and fmaxm rank -0 below +0 and write the chosen
operand's bits; with one NaN, fmin and fmax write the number and fminm and fmaxm the canonical NaN; with two, the
canonical NaN. fcmp writes the predicate of its SUB code, with -0 = +0, ordered relations false and .ne true for a
NaN. fclass writes 2 to the class number as a 32-bit value, and its operand position is not one that the launch-marker
check reads. (R124, R125, R126) -/
def Obligations.FloatOrderAndClasses : Prop :=
  ∀ (h : Head) (m : ModA),
    let a (x : Iss) (l : Nat) : Nat := x.elem x.h.a m.ty l
    let b (x : Iss) (l : Nat) : Nat := x.elem x.h.b m.ty l
    Sets (.fmin h m) m.ty (fun x l => picked m.ty false true (a x l) (b x l)) ∧
    Sets (.fmax h m) m.ty (fun x l => picked m.ty true true (a x l) (b x l)) ∧
    Sets (.fminm h m) m.ty (fun x l => picked m.ty false false (a x l) (b x l)) ∧
    Sets (.fmaxm h m) m.ty (fun x l => picked m.ty true false (a x l) (b x l)) ∧
    SetsPred (.fcmp h m) (fun x l =>
      let n := codeNan m.ty (a x l) || codeNan m.ty (b x l)
      let p := valueKey m.ty (a x l)
      let q := valueKey m.ty (b x l)
      match m.sub.toNat with
      | 0 => !n && decide (p = q)
      | 1 => n || decide (p ≠ q)
      | 2 => !n && decide (p < q)
      | 3 => !n && decide (p ≤ q)
      | 4 => !n && decide (p > q)
      | 5 => !n && decide (p ≥ q)
      | 6 => !n
      | _ => n) ∧
    Sets (.fclass h m) .n32 (fun x l => 2 ^ classOf m.ty (a x l)) ∧
    (Op.entry .fclass h (.a m)).a.fp = false

/-- For every type of group 0x1, mode and pair of finite operands with a non-zero divisor, whose exact quotient does not
exceed the largest finite value in magnitude, the result of fdivide, which fdiv and frcp write (obligation
FloatFunctionsComplete), is round_to of that quotient: the quotient where the format holds it, otherwise the neighbour
that the mode names. (05_alu_isa.md, R91, R92, R127) -/
def Obligations.QuotientRoundsOnce : Prop :=
  ∀ (t : Ty) (mode : Rnd) (sat : Bool) (a b : Ext), t.isFp1 = true → mode ∈ modes → finite a = true → finite b = true →
    numberOf b ≠ 0 → (numberOf a / numberOf b).abs ≤ numberOf (t.decode t.largest) →
    RoundsTo t mode (numberOf a / numberOf b) (fdivide t mode sat a b) ∧
      (fdivide t mode sat a b).testBit (t.width - 1) = (a.sign != b.sign)

/-- Where the instruction passes the checks at issue, fdiv, frcp, fsqrt, frsq, fexp2, flog2, fsin, fcos and ftanh empty D
and put the value of their function at the operands in flight; a NaN operand gives the canonical NaN, and zeros,
infinities and negative operands give what the table of R127 lists: signed zeros and infinities, 1 or NaN. fsqrt and
frsq give round_to of the root of a and of 1/a, wherever it does not exceed the largest finite value, as comparing
squares says. flog2 of a power of two and fexp2 of an integer round the exact power and exponent once; fexp2 of
magnitudes from 2^14 up overflows or underflows, ftanh of magnitudes from 2^7 up gives 1 with the sign of a, or the
value next to it toward zero where the mode rounds so; of operands too small to tell, fsin and ftanh give the operand,
fcos 1 and fexp2 1, or the neighbour on the side of the exact value where the mode asks for it. Of fexp2, flog2, fsin,
fcos and ftanh at other operands this statement says only that the value is that of the model's enclosure (fexp2Of and
so on). (05_alu_isa.md, R64, R91, R92, R93, R127) -/
def Obligations.FloatFunctionsComplete : Prop :=
  (∀ (h : Head) (m : ModA),
    let a (x : Iss) (l : Nat) : Ext := m.ty.decode (x.elem x.h.a m.ty l)
    let b (x : Iss) (l : Nat) : Ext := m.ty.decode (x.elem x.h.b m.ty l)
    Sends (.fdiv h m) (fun x => x.results m.ty (fun l => fdivide m.ty m.rnd m.sat (a x l) (b x l))) ∧
    Sends (.frcp h m) (fun x => x.results m.ty (fun l => fdivide m.ty m.rnd m.sat (.fin false 1 0) (a x l))) ∧
    ∀ i ∈ [(Instr.fsqrt h m, fsqrtOf), (.frsq h m, frsqOf), (.fexp2 h m, fexp2Of), (.flog2 h m, flog2Of), (.fsin h m, fsinOf),
        (.fcos h m, fcosOf), (.ftanh h m, ftanhOf)],
      Sends i.1 (fun x => x.results m.ty (fun l => i.2 m.ty m.rnd m.sat (a x l)))) ∧
  (∀ t : Ty, t.isFp1 = true → ∀ (mode : Rnd), mode ∈ modes →
    let nan := t.nanCode
    let zero (s : Bool) : Nat := t.signed' s 0
    let inf (s : Bool) : Nat := t.signed' s (t.largest + 1)
    let one (s : Bool) : Nat := t.round mode false (.fin s 1 0)
    let z (s : Bool) : Ext := t.decode (zero s)
    (∀ b, fdivide t mode false .nan b = nan ∧ fdivide t mode false b .nan = nan) ∧
    (∀ f ∈ [fsqrtOf, frsqOf, fexp2Of, flog2Of, fsinOf, fcosOf, ftanhOf], ∀ sat, f t mode sat .nan = nan) ∧
    (∀ (s r : Bool) (m : Nat) (e : Int),
      fdivide t mode false (.inf s) (.inf r) = nan ∧ fdivide t mode false (z s) (z r) = nan ∧
      fdivide t mode false (.inf s) (.fin r m e) = inf (s != r) ∧ fdivide t mode false (.fin s m e) (.inf r) = zero (s != r) ∧
      (m ≠ 0 → fdivide t mode false (.fin s m e) (z r) = inf (s != r)) ∧
      (m ≠ 0 → fsqrtOf t mode false (.fin true m e) = nan ∧ frsqOf t mode false (.fin true m e) = nan ∧
        flog2Of t mode false (.fin true m e) = nan)) ∧
    (∀ s : Bool,
      fsqrtOf t mode false (z s) = zero s ∧ frsqOf t mode false (z s) = inf s ∧ fexp2Of t mode false (z s) = one false ∧
      flog2Of t mode false (z s) = inf true ∧ fsinOf t mode false (z s) = zero s ∧ fcosOf t mode false (z s) = one false ∧
      ftanhOf t mode false (z s) = zero s ∧ fsinOf t mode false (.inf s) = nan ∧ fcosOf t mode false (.inf s) = nan ∧
      ftanhOf t mode false (.inf s) = one s) ∧
    fsqrtOf t mode false (.inf false) = inf false ∧ fsqrtOf t mode false (.inf true) = nan ∧
    frsqOf t mode false (.inf false) = zero false ∧ frsqOf t mode false (.inf true) = nan ∧
    fexp2Of t mode false (.inf false) = inf false ∧ fexp2Of t mode false (.inf true) = zero false ∧
    flog2Of t mode false (.inf false) = inf false ∧ flog2Of t mode false (.inf true) = nan ∧
    flog2Of t mode false (.fin false 1 0) = zero false) ∧
  (∀ t : Ty, t.isFp1 = true → ∀ (mode : Rnd) (sat : Bool), mode ∈ modes →
    let top := numberOf (t.decode t.largest)
    let one (s : Bool) : Nat := (if s then 2 ^ (t.width - 1) else 0) + t.bias * 2 ^ t.mant
    let inward (s : Bool) : Bool := mode == .rtz || (mode == .rdn && !s) || (mode == .rup && s)
    (∀ (m : Nat) (e : Int), m ≠ 0 →
      let y := numberOf (.fin false m e)
      (y ≤ top * top → RootRoundsTo t mode y (fsqrtOf t mode sat (.fin false m e))) ∧
      (1 / y ≤ top * top → RootRoundsTo t mode (1 / y) (frsqOf t mode sat (.fin false m e)))) ∧
    (∀ (k : Nat) (e : Int), flog2Of t mode sat (.fin false (2 ^ k) e) =
      t.round mode sat (.fin (decide (k + e < 0)) (k + e).natAbs 0)) ∧
    (∀ n : Int, n ≠ 0 → n.natAbs < 2 ^ 14 →
      fexp2Of t mode sat (.fin (decide (n < 0)) n.natAbs 0) = t.round mode sat (.fin false 1 n)) ∧
    ∀ (s : Bool) (m : Nat) (e : Int), m ≠ 0 →
      let x := Ext.fin s m e
      let size := (numberOf x).abs
      (2 ^ 14 ≤ size → fexp2Of t mode sat x = t.round mode sat (.fin false 1 (if s then -2 ^ 14 else 2 ^ 14))) ∧
      (size < 2 ^ (-(t.mant : Int) - 8) → fexp2Of t mode sat x =
        if s then (if mode = .rtz ∨ mode = .rdn then one false - 1 else one false) else if mode = .rup then one false + 1 else one false) ∧
      (2 ^ 7 ≤ size → ftanhOf t mode sat x = if inward s then one s - 1 else one s) ∧
      (size < 2 ^ (-(t.mant : Int) - 6) →
        fcosOf t mode sat x = (if inward false then one false - 1 else one false) ∧
        ∀ c, t.decode c = x → c < 2 ^ t.width →
          fsinOf t mode sat x = (if inward s then c - 1 else c) ∧ ftanhOf t mode sat x = if inward s then c - 1 else c))

/-- Where the instruction passes the checks at issue: cvt converts one element by R95 (integer to integer: reduced or
clamped; to an integer: rint clamped to the range, NaN to 0; to a float: round_to with R93); cvtq and cvtd convert the
exact product of the element and the FP32 scale in B; dot2, dot4 and dot8 write, for integers, the exact sum of 2, 4
or 8 products and C reduced modulo 2^32 or clamped to .i32, and for floats round_to of the exact sum of the products
and C, the addend counted as a term. The model's choices: the sign of zero of cvtd of integer 0 by a negative scale
(log entry 150), and the packed operand that an immediate is (log entry 21). (04_formats.md, 05_alu_isa.md, R95, R102,
R128, R129, R130) -/
def Obligations.ConversionsAndDotProducts : Prop :=
  ∀ (h : Head) (m : ModB),
    Sets (.cvt h m) m.dty (fun x l => converted m.dty m.sty m.rnd m.sat (x.val x.h.a m.sty l)) ∧
    (∀ i ∈ [Instr.cvtq h m, .cvtd h m], Sets i m.dty (fun x l =>
      toScalar m.dty m.rnd m.sat (Ext.mul (valueOf m.sty (x.val x.h.a m.sty l)) (Ty.f32.decode (x.val x.h.b .f32 l))))) ∧
    (∀ i ∈ [(Instr.dot2 h m, 2), (.dot4 h m, 4), (.dot8 h m, 8)],
      Sets i.1 m.dty (fun x l =>
        let ks := List.range i.2
        let a := x.lane4 x.h.a m.sty l
        let b := x.lane4 x.h.b m.sty l
        if m.sty.isInt then
          fitted .i32 m.sat ((ks.map (fun k => asInt m.sty (a k) * asInt m.sty (b k))).sum + asInt .i32 (x.val x.h.c .i32 l))
        else
          m.dty.round m.rnd m.sat (Ext.sum (m.rnd == .rdn)
            (ks.map (fun k => Ext.mul (m.sty.decode (a k)) (m.sty.decode (b k))) ++ [m.dty.decode (x.val x.h.c m.dty l)]))))

/-- Where the instruction passes the checks at issue: packb gives lane g*G + i of each group of G lanes (32 for MX, 16 for
Lumen) word i of the image of the block built from A of the group's lanes, +0 for a lane that does not execute, and 0
beyond the image; unpackb gives each executing lane the FP32 value of its element of the image whose words are A of
lanes g*G up, 0 for a lane that does not execute. A poisoned A of an executing lane of the group poisons the group's
results. The element values of an image are: for MX, 2^(X - 127) * v_i, NaN for X = 0xFF; for Lumen, the signed
magnitude times 2^(E - 127 - u - (M - 1)), NaN for E = 0xFF. A block is built so: the NaN block where a value is NaN,
or infinite without .sat; for MX the scale X that the largest magnitude asks for (127 for zeros) and each value times
2^(127 - X) rounded once and clamped to the largest finite element, its sign kept; for Lumen the exponent E, one
higher where a magnitude rounds beyond M bits (the NaN block, or clamped under .sat, at 254), the micro-exponent of
each pair that is not zero and fits at half the scale, and each field its sign and magnitude. A matrix image of a
block format is its blocks in order. The model's choices: the clamp of .mxi8 to -127 to 127 (log entry 19), an
immediate A of unpackb as the same sign-extended word of every lane (log entry 148), and checks and marks of A of
executing lanes beyond the image's words too (log entry 159). (04_formats.md, 05_alu_isa.md, R86, R87, R88, R89, R131,
R132) -/
def Obligations.BlocksAcrossLanes : Prop :=
  (∀ (h : Head) (m : ModB),
    Writes (.packb h m) (fun x => x.each (fun l =>
      let g := m.dty.blockLen
      let xs := (groupOf g l).map (fun j => if j ∈ x.lanes then Ty.f32.decode (x.val x.h.a .f32 j) else .fin false 0 0)
      let img := buildBlock m.dty m.rnd m.sat xs
      x.out .n32 l (if l % g < (m.dty.blockBytes + 3) / 4 then img / 2 ^ (32 * (l % g)) % 2 ^ 32 else 0) (x.groupPoisoned g l))) ∧
    Writes (.unpackb h m) (fun x => x.each (fun l =>
      let g := m.sty.blockLen
      let ws := ((groupOf g l).take ((m.sty.blockBytes + 3) / 4)).map (fun j => if j ∈ x.lanes then x.val x.h.a .n32 j else 0)
      x.out .n32 l (Ty.f32.round .rne false (blockElem m.sty (packCodes 32 ws) (l % g))) (x.groupPoisoned g l)))) ∧
  (∀ (t : Ty) (img i : Nat), t.isMx = true → i < 32 →
    let w := t.mxElem.width
    let sc := img / 2 ^ (32 * w) % 256
    let c := img / 2 ^ (w * i) % 2 ^ w
    (sc = 255 → blockElem t img i = .nan) ∧
    (sc ≠ 255 → t.mxElem = .i8 → finite (blockElem t img i) = true ∧
      numberOf (blockElem t img i) = (asInt .i8 c : Rat) * 2 ^ (-6 : Int) * 2 ^ ((sc : Int) - 127)) ∧
    (sc ≠ 255 → t.mxElem ≠ .i8 → blockElem t img i = (t.mxElem.decode c).scale ((sc : Int) - 127))) ∧
  (∀ (t : Ty) (img i : Nat), t.isLum = true → i < 16 →
    let M := t.lumBits
    let E := img % 256
    let u := if img.testBit (8 + i / 2) then 1 else 0
    let q := img / 2 ^ (16 + (M + 1) * i) % 2 ^ M
    let neg := img.testBit (16 + (M + 1) * i + M)
    (E = 255 → blockElem t img i = .nan) ∧
    (E ≠ 255 → blockElem t img i = .fin neg q ((E : Int) - 127 - u - (M - 1)))) ∧
  (∀ (t : Ty) (mode : Rnd) (sat : Bool) (xs : List Ext), mode ∈ modes → xs.length = t.blockLen →
    let img := buildBlock t mode sat xs
    let y := blockNumber xs
    let bad : Prop := .nan ∈ xs ∨ (sat = false ∧ ∃ neg, .inf neg ∈ xs)
    let neg (i : Nat) : Bool := ((xs[i]?).getD .nan).sign
    (t.isMx = true →
      let F := t.mxElem
      let w := F.width
      let code (i : Nat) : Nat := img / 2 ^ (w * i) % 2 ^ w
      let X := img / 2 ^ (32 * w)
      (bad → img = 255 * 2 ^ (32 * w)) ∧
      (¬bad → X ≤ 254 ∧ BlockExponent y 32 (127 - F.emax) 127 X ∧ ∀ i < 32,
        let v : Rat := y i * 2 ^ (127 - (X : Int))
        let top := numberOf (F.decode F.largest)
        (F = .i8 → ∀ q, RintsTo mode (64 * v) q → asInt .i8 (code i) = max (-127) (min 127 q)) ∧
        (F ≠ .i8 → (code i).testBit (w - 1) = neg i ∧ (v.abs ≤ top → RoundsTo F mode v (code i)) ∧
          (top < v.abs → numberOf (F.decode (code i)) = if neg i then -top else top)))) ∧
    (t.isLum = true →
      let M := t.lumBits
      let Q := 2 ^ M - 1
      (bad → img = 255) ∧
      (¬bad → ∃ E0 : Nat, BlockExponent y 16 127 0 E0 ∧
        ∀ p : Nat → Int, (∀ i < 16, RintsTo mode (y i * 2 ^ ((M : Int) - 1 + 127 - E0)) (p i)) →
          let past : Prop := ∃ i < 16, Q < (p i).natAbs
          let built (E : Nat) : Prop :=
            ∀ q r : Nat → Int, (∀ i < 16, RintsTo mode (y i * 2 ^ ((M : Int) - 1 + 127 - E)) (q i)) →
              (∀ i < 16, RintsTo mode (y i * 2 ^ ((M : Int) + 127 - E)) (r i)) →
              let fine (j : Nat) : Prop :=
                (y (2 * j) ≠ 0 ∨ y (2 * j + 1) ≠ 0) ∧ (r (2 * j)).natAbs ≤ Q ∧ (r (2 * j + 1)).natAbs ≤ Q
              img % 256 = E ∧
              (∀ j < 8, img.testBit (8 + j) = true ↔ fine j) ∧
              ∀ i < 16,
                let field := img / 2 ^ (16 + (M + 1) * i) % 2 ^ (M + 1)
                let sign := if neg i then 2 ^ M else 0
                (fine (i / 2) → field = (r i).natAbs + sign) ∧ (¬fine (i / 2) → field = min Q (q i).natAbs + sign)
          (past → E0 < 254 → built (E0 + 1)) ∧
          (past → E0 = 254 → sat = false → img = 255) ∧
          (¬past ∨ (E0 = 254 ∧ sat = true) → built E0)))) ∧
  (∀ (t : Ty) (mode : Rnd) (sat : Bool) (xs : List Ext), t.isBlock = true → t.blockLen ∣ xs.length →
    (imageOf t mode sat xs).length = xs.length / t.blockLen * t.blockBytes ∧
    ∀ k < xs.length / t.blockLen, leNat (((imageOf t mode sat xs).drop (k * t.blockBytes)).take t.blockBytes) =
      buildBlock t mode sat ((xs.drop (k * t.blockLen)).take t.blockLen))

/-! ### Matrices (group 0x3) -/

/-- Where the instruction passes the checks at issue, some thread executes and the prism is free (mshape: no unfinished
instruction names its register), each executing thread gets: mshape the shape word of A, tag T and its bytes kept,
zero beyond; mzero that shape and zeros; mfill its shape, tag T and every element A converted; mget element (B[7:4],
B[3:0]) and mset those bits of its image replaced by the low bits of A, and no other; mmov a copy; mtrn element (j, i)
at (i, j); mcvt every element converted. A thread for which a condition holds raises SHAPE with the SUB of the first:
void source 0, inadmissible shape or index 1, tag 2, block length 3, capacity 4 (mget and mset: void 0, tag 2, index
1). mshape completes at once and records %emask and %ekind, and takes the matrix trap after its results where MTE is
set and a thread raised an exception. The model's choices: the result of mfill is not marked by a poisoned md (log
entry 152), and padding bits are zeros (log entry 151). For every scalar tag and list of codes, the image has the
length of R135 (3 bytes for every 4 elements or part of 4 for the 6-bit formats, otherwise the least whole number of
bytes), and element i read from it is the low w bits of code i. (06_matrix_model.md, 07_matrix_isa.md, R85, R135,
R144, R153, R154, R157, R158, R160, R161, R162) -/
def Obligations.MatrixShapesAndElements : Prop :=
  (∀ (h : Head) (m : ModA),
    (let one (x : Iss) (l : Nat) : MatOut :=
      let w := shapeWord (x.val x.h.a .n32 l)
      let d := x.mat x.h.d l
      shaped x l [(!admitted w.1 w.2, 1)]
        { rows := w.1, cols := w.2, tag := m.ty, pz := x.marked l
          img := (List.range (m.ty.imageBytes (w.1 * w.2))).map (fun k => (d.img[k]?).getD 0) }
     let all (x : Iss) : List (Nat × MatOut) := x.lanes.map (fun l => (l, one x l))
     Does (.mshape h m) (fun x s => x.lanes ≠ [] ∧ s.mHeld x = false) (fun x s =>
       let s := s.updBeam x.f.core x.f.slot (fun b => b.record x.gm (excMask (all x)) (excKinds (all x)))
       if x.f.p.fmt.getLsbD 9 && excMask (all x) != 0 then
         .after { cause := 0x05, done := true } (s.updBeam x.f.core x.f.slot (fun b => b.write (matOuts (all x))))
       else .write (matOuts (all x)) s)) ∧
    Prisms (.mzero h m) false (fun x l =>
      let w := shapeWord (x.val x.h.a .n32 l)
      shaped x l [(!admitted w.1 w.2, 1)]
        { rows := w.1, cols := w.2, tag := m.ty, img := List.replicate (m.ty.imageBytes (w.1 * w.2)) 0 }) ∧
    Prisms (.mfill h m) false (fun x l =>
      let d := x.mat x.h.d l
      let mode := if m.rnd = .rfmt then fmtRnd x.f.p.fmt else m.rnd
      let n := d.rows * d.cols
      shaped x l [(d.void, 0)]
        { rows := d.rows, cols := d.cols, tag := m.ty, pz := x.f.b.poisoned x.e.a x.h.a l
          img :=
            if m.ty.isBlock then imageOf m.ty mode m.sat (List.replicate n (Ty.f32.decode (x.val x.h.a .f32 l)))
            else imageOfCodes m.ty (List.replicate n (
              if m.ty.isInt then fitted m.ty m.sat (asInt .i32 (x.val x.h.a .i32 l))
              else if m.ty = .f64 then m.ty.round mode m.sat (Ty.f64.decode (x.val x.h.a .f64 l))
              else m.ty.round mode m.sat (Ty.f32.decode (x.val x.h.a .f32 l)))) }) ∧
    Prisms (.mget h m) true (fun x l =>
      let a := x.mat x.h.a l
      let ij := indexWord (x.val x.h.b .n32 l)
      match firstOf (elementChecks a m.ty ij) with
      | some w => .exc w
      | none => .ok (x.out m.ty l (a.code ij.1 ij.2) a.pz)) ∧
    Prisms (.mset h m) false (fun x l =>
      let d := x.mat x.h.d l
      let ij := indexWord (x.val x.h.b .n32 l)
      match firstOf (elementChecks d m.ty ij) with
      | some w => .exc w
      | none => .ok (x.outM l { d with
          img :=
            let n := leNat d.img
            let lo := m.ty.width * (ij.1 * d.cols + ij.2)
            let hi := lo + m.ty.width
            leBytes (m.ty.imageBytes (d.rows * d.cols)) (n % 2 ^ lo + 2 ^ lo * x.elem x.h.a m.ty l + 2 ^ hi * (n / 2 ^ hi))
          pz := d.pz || x.f.b.poisoned x.e.a x.h.a l })) ∧
    Prisms (.mmov h m) false (fun x l => shaped x l [((x.mat x.h.a l).void, 0)] (x.mat x.h.a l)) ∧
    Prisms (.mtrn h m) true (fun x l =>
      let a := x.mat x.h.a l
      shaped x l [(a.void, 0), (a.tag.isBlock, 2)]
        { rows := a.cols, cols := a.rows, tag := a.tag, pz := a.pz, img := imageFrom a.tag a.cols a.rows (fun i j => a.code j i) })) ∧
  (∀ (h : Head) (m : ModB),
    Prisms (.mcvt h m) true (fun x l =>
      let a := x.mat x.h.a l
      let mode := if m.rnd = .rfmt then fmtRnd x.f.p.fmt else m.rnd
      let vals := (List.range (a.rows * a.cols)).map (imageElem a.tag a.img)
      shaped x l [(a.void, 0), (decide (a.tag ≠ m.sty), 2)]
        { rows := a.rows, cols := a.cols, tag := m.dty, pz := a.pz
          img :=
            if m.dty.isBlock then imageOf m.dty mode m.sat (vals.map (fun v => Ty.f32.decode (Ty.f32.round mode false v)))
            else if a.tag.isBlock then imageOfCodes m.dty (vals.map (toScalar m.dty mode m.sat))
            else imageFrom m.dty a.rows a.cols (fun i j => converted m.dty a.tag mode m.sat (a.code i j)) })) ∧
  (∀ (t : Ty) (cs : List Nat), t.isBlock = false →
    (imageOfCodes t cs).length = (if t.width = 6 then 3 * ((cs.length + 3) / 4) else (cs.length * t.width + 7) / 8) ∧
    ∀ i < cs.length, imageCode t (imageOfCodes t cs) i = cs.getD i 0 % 2 ^ t.width)

/-- Where the instruction passes the checks at issue, some thread executes and the prism is free: madd and mhad give each
element rd of the exact sum, difference or product, or fit of it for .i32; mred gives each row (each column with
.cols) rd of the exact sum, fit of it for .i32, or the minimum or maximum: signed for .i32, otherwise ranked with -0
below +0 and NaN ignored, the canonical NaN when every element is NaN. Void sources raise SHAPE with SUB 0, unequal
shapes 1, other tags 2, a result beyond capacity 4. (R165, R166) -/
def Obligations.MatrixElementwiseAndReductions : Prop :=
  ∀ (h : Head) (m : ModA),
    Prisms (.madd h m) true (fun x =>
      let down := (if m.rnd = .rfmt then fmtRnd x.f.p.fmt else m.rnd) == .rdn
      if m.sub = 1 then onElements m (fun a b => a - b) (fun a b => Ext.sum down [a, b.neg]) x
      else onElements m (fun a b => a + b) (fun a b => Ext.sum down [a, b]) x) ∧
    Prisms (.mhad h m) true (onElements m (fun a b => a * b) Ext.mul) ∧
    (∀ (s : State) (x : Iss), s.passes (.mred h m) = some x → PrismFree x s →
      ∃ r : Nat → Nat → Nat,
        (∀ l ∈ x.lanes,
          let a := x.mat x.h.a l
          a.tag = m.ty → a.void = false →
          if m.sub.getLsbD 2 then ∀ j < a.cols, reducedTo m x (r l j) ((List.range a.rows).map (fun i => a.code i j))
          else ∀ i < a.rows, reducedTo m x (r l i) ((List.range a.cols).map (fun j => a.code i j))) ∧
        exec (.mred h m) s = .next (s.apply x (s.prismOp x true (fun l =>
          let a := x.mat x.h.a l
          let cols := m.sub.getLsbD 2
          let rows' := if cols then 1 else a.rows
          let cols' := if cols then a.cols else 1
          shaped x l [(a.void, 0), (decide (a.tag ≠ m.ty), 2)]
            { rows := rows', cols := cols', tag := m.ty, pz := a.pz, img := imageFrom m.ty rows' cols' (fun i j => r l (i + j)) }) none)))

/-- Where the instruction passes the checks at issue, some thread executes, the prism is free and no acquire of the
threads is in flight: if for every executing thread whose shape and tag checks pass A and B are multiples of 4 and
every byte lies within the allocation, mld gives each such thread its shape, tag T and the bytes of its image or of
its rows in order, padding bits zero, poisoned where a word read is, and mst stores each thread's image or rows under
its own tag, lane by lane and row by row, padding zero, and writes no register; otherwise the beam takes the
scratchpad-access fault (cause 0x06) of the lowest failing thread, with A in %taddr where A or B is misaligned and the
lowest out-of-range byte otherwise, and nothing else changes. Void matrices raise SHAPE with SUB 0, inadmissible
strides 1; mld also raises 3 and 4. That both act on the scratchpad at their issue, and hold while an acquire of the
threads is in flight, is the model's choice (entry 14 of the log). So is that a poisoned md does not mark the result
of mld (log entry 152). (07_matrix_isa.md, R154, R156, R159) -/
def Obligations.MatrixLoadsAndStores : Prop :=
  ∀ (h : Head) (m : ModA),
    let loadChecks (x : Iss) (l : Nat) : Option Word :=
      firstOf (accessChecks x l m.ty ++ resultChecks x m.ty (x.mat x.h.d l).rows (x.mat x.h.d l).cols)
    let storeChecks (x : Iss) (l : Nat) : Option Word := firstOf (accessChecks x l (x.mat x.h.d l).tag)
    let fails (checks : Iss → Nat → Option Word) (tag : Iss → Nat → Ty) (x : Iss) (l : Nat) : Prop :=
      l ∈ x.lanes ∧ checks x l = none ∧ ¬InBounds x l (tag x l)
    let faultsAt (i : Instr) (checks : Iss → Nat → Option Word) (tag : Iss → Nat → Ty) : Prop :=
      ∀ (s : State) (x : Iss) l, s.passes i = some x → MatFree x s → fails checks tag x l → (∀ k < l, ¬fails checks tag x k) →
        ∃ addr : Nat, exec i s = .next (s.apply x (.trap { cause := 0x06, lane := l, addr := BitVec.ofNat 64 addr })) ∧
          let a := x.val x.h.a .n32 l % 2 ^ 32
          if a % 4 ≠ 0 ∨ x.val x.h.b .n32 l % 4 ≠ 0 then addr = a
          else (∃ r ∈ runsOf x l (tag x l), r.1 ≤ addr ∧ (addr < r.1 + r.2 ∨ r.2 = 0)) ∧ x.f.t.decl.spad ≤ addr ∧
            ∀ r ∈ runsOf x l (tag x l), ∀ k, r.1 ≤ k → k < r.1 + r.2 → x.f.t.decl.spad ≤ k → addr ≤ k
    (∀ (s : State) (x : Iss), s.passes (.mld h m) = some x → MatFree x s → (∀ l, ¬fails loadChecks (fun _ _ => m.ty) x l) →
      exec (.mld h m) s = .next (s.apply x (s.prismOp x true (fun l =>
        let d := x.mat x.h.d l
        let runs := runsOf x l m.ty
        match loadChecks x l with
        | some w => .exc w
        | none => .ok (x.outM l { rows := d.rows, cols := d.cols, tag := m.ty
                                  img := cleaned m.ty (d.rows * d.cols) ((runs.map (fun r => x.f.t.load r.1 r.2)).flatten)
                                  pz := runs.any (fun r => x.f.t.loadPz r.1 r.2) })) none))) ∧
    (∀ (s : State) (x : Iss), s.passes (.mst h m) = some x → MatFree x s → (∀ l, ¬fails storeChecks (fun x l => (x.mat x.h.d l).tag) x l) →
      let stored (t : Team) : Team := x.lanes.foldl (fun t l =>
        let d := x.mat x.h.d l
        let img := cleaned d.tag (d.rows * d.cols) d.img
        if (storeChecks x l).isSome then t
        else ((runsOf x l d.tag).mapIdx (fun k r => (r, (img.drop (k * r.2)).take r.2))).foldl
          (fun t r => t.store r.1.1 r.2 d.pz) t) t
      exec (.mst h m) s = .next (s.apply x ((s.updTeam x.f.core x.f.b.resp stored).prismOp x false (fun l =>
        match storeChecks x l with
        | some w => .exc w
        | none => .ok {}) none))) ∧
    faultsAt (.mld h m) loadChecks (fun _ _ => m.ty) ∧
    faultsAt (.mst h m) storeChecks (fun x l => (x.mat x.h.d l).tag)

/-- Where the instruction passes the checks at issue, some thread executes and the prism is free (mmasp: no acquire in
flight), every executing thread without an exception gets the m by n product of tag CFMT whose element (i, j) comes
from the products of row i of A and column j of B, negated as .nega and .negb direct, and C (mmasp: D), +0 under .zc:
for .i32 the exact sum modulo 2^32; for FP32 and FP64 a chain of fused steps in ascending order; for narrow inputs
chunks of 8 (FP16, BF16) or 16, each chunk's exact sum added to the FP32 accumulator with one rne rounding, then
rounded to D. mmasp takes an element of A at original column g*M + p from the slot whose metadata index is p, and +0
where none is. Exceptions: SHAPE with SUB 0, 5 (mmasp, dense), 1, 2, 4, then META (2 for a bad record, else 1 or 0
with the index). Poisoned metadata that a thread reads counts as read poison, whether it then raises META or not
(R387). Telemetry counts the instruction and may attach one measured element (R104). That poisoned metadata marks the
D of mmasp is the model's choice (entry 25 of the log). (04_formats.md, 06_matrix_model.md, 07_matrix_isa.md, R98,
R99, R100, R101, R104, R148, R149, R150, R163) -/
def Obligations.MatrixProducts : Prop :=
  ∀ (h : Head) (m : ModA),
    (∀ (s : State) (x : Iss), s.passes (.mma h m) = some x → PrismFree x s → ∃ t sample, Sampled s t x sample ∧
      exec (.mma h m) s = .next (s.apply x (t.prismOp x true (fun l =>
        let fmt := x.f.p.fmt
        let a := x.mat x.h.a l
        let b := x.mat x.h.b l
        let c := x.mat x.h.c l
        let acc := !(m.sub.getLsbD 0)
        match firstOf ([(a.void || b.void || (acc && c.void), 0),
            (decide (a.cols ≠ b.rows) || (acc && decide (c.rows ≠ a.rows ∨ c.cols ≠ b.cols)), 1),
            (decide (a.tag ≠ fmtTy fmt 27) || decide (b.tag ≠ fmtTy fmt 22) || (acc && decide (c.tag ≠ fmtTy fmt 17)), 2)] ++
            resultChecks x (fmtTy fmt 17) a.rows b.cols) with
        | some w => .exc w
        | none => .ok (x.outM l (productReg x m a.rows b.cols a.cols a.value b.value c.value
            (a.pz || b.pz || (acc && c.pz))))) sample))) ∧
    (∀ (s : State) (x : Iss), s.passes (.mmasp h m) = some x → MatFree x s →
      let fmt := x.f.p.fmt
      let acc := !(m.sub.getLsbD 0)
      let dense := decide (fmt.toNat / 2 ^ 12 % 4 = 0)
      let N := if fmt.toNat / 2 ^ 12 % 4 = 2 then 1 else 2
      let M := if fmt.toNat / 2 ^ 12 % 4 = 3 then 8 else 4
      let V := if fmt.getLsbD 11 then 8 else 4
      let rec_ := x.val x.h.c .n64 0
      let base := rec_ % 2 ^ 19
      let bcast := rec_.testBit 19
      let off (l : Nat) : Nat := if bcast then base else base + 16 * l
      let unread (l : Nat) : Option Word :=
        let a := x.mat x.h.a l
        let b := x.mat x.h.b l
        let d := x.mat x.h.d l
        match firstOf ([(a.void || b.void || (acc && d.void), 0), (dense, 5),
            (decide (b.rows % M ≠ 0) || decide (a.cols ≠ b.rows / M * N) || decide (a.rows % V ≠ 0) ||
              (acc && decide (d.rows ≠ a.rows ∨ d.cols ≠ b.cols)), 1),
            (decide (a.tag ≠ fmtTy fmt 27) || decide (b.tag ≠ fmtTy fmt 22) || (acc && decide (d.tag ≠ fmtTy fmt 17)), 2)] ++
            resultChecks x (fmtTy fmt 17) a.rows b.cols) with
        | some w => some w
        | none =>
          if rec_ / 2 ^ 20 ≠ 0 ∨ base % 64 ≠ 0 ∨ x.f.t.decl.spad < base + (if bcast then 16 else 512) then
            some (BitVec.ofNat 32 (4 + 16 * 2))
          else none
      ∃ t sample, Sampled s t x sample ∧ exec (.mmasp h m) s = .next (s.apply x (t.prismOp x true (fun l =>
        let a := x.mat x.h.a l
        let b := x.mat x.h.b l
        let d := x.mat x.h.d l
        let G := b.rows / M
        let bs := x.f.t.load (off l) 16
        let index (v g k : Nat) : Nat := sparseIndex bs ((v * G + g) * N + k)
        match unread l with
        | some w => .exc w
        | none =>
          match (List.range (a.rows / V * G * N)).find? (fun t =>
            decide (M ≤ sparseIndex bs t) ||
              (List.range (t % N)).any (fun k => sparseIndex bs (t / N * N + k) == sparseIndex bs t)) with
          | some t => .exc (BitVec.ofNat 32 (4 + 16 * (if M ≤ sparseIndex bs t then 1 else 0) + 256 * (t / N)))
          | none =>
            let full (i k : Nat) : Ext :=
              match (List.range N).find? (fun q => index (i / V) (k / M) q == k % M) with
              | some q => a.value i (k / M * N + q)
              | none => .fin false 0 0
            .ok (x.outM l (productReg x m a.rows b.cols b.rows full b.value d.value
              (a.pz || b.pz || (acc && d.pz) || x.f.t.loadPz (off l) 16)))) sample
        (x.lanes.any (fun l => (unread l).isNone && x.f.t.loadPz (off l) 16)))))

/-- Where the instruction passes the checks at issue, some thread executes and the prism is free, minv, mlu, mchol, msolve
and mexp give each executing thread the rows that the model's rendering of their pseudocode computes (minvRows and so
on), with SHAPE for a void source (0), a source that is not square, or of the wrong row count, or above 8 by 8 for
mexp (1), another tag (2), and a result beyond capacity (4), before SING or NPD. Of those renderings: for n = 1 minv
gives rd(1 / a), msolve rd(b / a) and mlu a with the identity permutation, or SING with index 0 for a zero; mchol
gives rd of the square root, or NPD for a value not above zero; mchol is zero above the diagonal and does not depend
on A there; mlu's permutation is one of the 16 numbers; mexp of a matrix with an infinity or NaN is NaN in every
element. For n = 2 the rows of minv, mlu and msolve (with one right-hand side) are those of the pseudocode, written
out, with the pivot that outranks the other, a NaN above every number and ties to the first, and SING 0 or 1; for
every n mchol's L meets the recurrence of its pseudocode, or NPD names the first column whose s is not above zero; for
n = 1 mexp scales by the least s with magnitude at most 1/2, takes the eight Horner steps and squares s times.
(07_matrix_isa.md, R167, R168, R169, R170, R171, R172) -/
def Obligations.MatrixFactorisations : Prop :=
  (∀ (h : Head) (m : ModA),
    let mode (x : Iss) : Rnd := if m.rnd = .rfmt then fmtRnd x.f.p.fmt else m.rnd
    let square (x : Iss) (l : Nat) : List (Bool × Nat) :=
      let a := x.mat x.h.a l
      [(a.void, 0), (decide (a.rows ≠ a.cols), 1), (decide (a.tag ≠ m.ty), 2)]
    let gives (x : Iss) (l : Nat) (checks : List (Bool × Nat)) (c : Nat) (pz : Bool) (r : Except Word Rows) (more : RegOut) : MatOut :=
      let a := x.mat x.h.a l
      match firstOf (checks ++ resultChecks x m.ty a.rows c), r with
      | some w, _ => .exc w
      | none, .error w => .exc w
      | none, .ok rows => .ok ((x.outM l { rows := a.rows, cols := c, tag := m.ty, img := imageOfRows m.ty rows, pz := pz }).join more)
    Prisms (.minv h m) true (fun x l =>
      let a := x.mat x.h.a l
      gives x l (square x l) a.cols a.pz (minvRows m.ty (mode x) a.rows a.vals) {}) ∧
    Prisms (.mlu h m) true (fun x l =>
      let a := x.mat x.h.a l
      let r := mluRows m.ty (mode x) a.rows a.vals
      gives x l (square x l) a.cols a.pz (r.map (·.1)) (match r with | .ok f => x.outPerm l f.2 a.pz | .error _ => {})) ∧
    Prisms (.mchol h m) true (fun x l =>
      let a := x.mat x.h.a l
      gives x l (square x l) a.cols a.pz (mcholRows m.ty (mode x) a.rows a.vals) {}) ∧
    Prisms (.msolve h m) true (fun x l =>
      let a := x.mat x.h.a l
      let b := x.mat x.h.b l
      gives x l [(a.void || b.void, 0), (decide (a.rows ≠ a.cols ∨ b.rows ≠ a.rows), 1), (decide (a.tag ≠ m.ty ∨ b.tag ≠ m.ty), 2)]
        b.cols (a.pz || b.pz) (msolveRows m.ty (mode x) a.rows a.vals b.vals) {}) ∧
    Prisms (.mexp h m) true (fun x l =>
      let a := x.mat x.h.a l
      gives x l [(a.void, 0), (decide (a.rows ≠ a.cols ∨ 8 < a.rows), 1), (decide (a.tag ≠ m.ty), 2)] a.cols a.pz
        (.ok (mexpRows m.ty (mode x) a.rows a.vals)) {})) ∧
  (∀ (t : Ty) (mode : Rnd) (a b : Ext), (t = .f32 ∨ t = .f64) →
    (minvRows t mode 1 [[a]] = if a.isZero then .error (BitVec.ofNat 32 1) else .ok [[rdDiv t mode (.fin false 1 0) a]]) ∧
    (msolveRows t mode 1 [[a]] [[b]] = if a.isZero then .error (BitVec.ofNat 32 1) else .ok [[rdDiv t mode b a]]) ∧
    (mluRows t mode 1 [[a]] = if a.isZero then .error (BitVec.ofNat 32 1) else .ok ([[a]], List.range 16)) ∧
    (mcholRows t mode 1 [[a]] =
      if a.isNan || a.isZero || a.sign then .error (BitVec.ofNat 32 2) else .ok [[rdSqrt t mode a]])) ∧
  (∀ (t : Ty) (mode : Rnd) (n : Nat) (a : Rows), n ≤ 16 → a.length = n → (∀ r ∈ a, r.length = n) →
    (∀ l, mcholRows t mode n a = .ok l → ∀ i j, i < j → j < n → cell l i j = .fin false 0 0) ∧
    (∀ a' : Rows, (∀ i j, j ≤ i → cell a' i j = cell a i j) → mcholRows t mode n a' = mcholRows t mode n a) ∧
    (∀ r, mluRows t mode n a = .ok r → List.Perm r.2 (List.range 16) ∧ ∀ i, n ≤ i → i < 16 → r.2[i]? = some i) ∧
    ((∃ r ∈ a, ∃ v ∈ r, finite v = false) → ∀ r ∈ mexpRows t mode n a, ∀ v ∈ r, v = .nan)) ∧
  (∀ (t : Ty) (mode : Rnd), (t = .f32 ∨ t = .f64) →
    let rd (v : Ext) : Ext := t.decode (t.round mode false v)
    let sum (u v : Ext) : Ext := rd (Ext.sum (mode == .rdn) [u, v])
    let quot (u v : Ext) : Ext := t.decode (fdivide t mode false u v)
    let less (u f v : Ext) : Ext := sum (Ext.mul f v).neg u
    let one : Ext := .fin false 1 0
    let zero : Ext := .fin false 0 0
    let sing {α : Type} (j : Nat) : Except Word α := .error (BitVec.ofNat 32 (1 + 256 * j))
    let inverse (a b c d x y z w : Ext) : Except Word Rows :=
      if a.isZero then sing 0
      else
        let g := less d c (quot b a)
        if g.isZero then sing 1
        else
          let z' := quot (less z c (quot x a)) g
          let w' := quot (less w c (quot y a)) g
          .ok [[less (quot x a) (quot b a) z', less (quot y a) (quot b a) w'], [z', w']]
    let factors (a b c d : Ext) (perm : List Nat) : Except Word (Rows × List Nat) :=
      if a.isZero then sing 0
      else if (less d (quot c a) b).isZero then sing 1
      else .ok ([[a, b], [quot c a, less d (quot c a) b]], perm)
    let solution (a b c d x y : Ext) : Except Word Rows :=
      if a.isZero then sing 0
      else if (less d (quot c a) b).isZero then sing 1
      else
        let y' := quot (less y (quot c a) x) (less d (quot c a) b)
        .ok [[quot (less x b y') a], [y']]
    (∀ a b c d x y : Ext,
      (¬Outranks c a → minvRows t mode 2 [[a, b], [c, d]] = inverse a b c d one zero zero one ∧
        mluRows t mode 2 [[a, b], [c, d]] = factors a b c d (List.range 16) ∧
        msolveRows t mode 2 [[a, b], [c, d]] [[x], [y]] = solution a b c d x y) ∧
      (Outranks c a → minvRows t mode 2 [[a, b], [c, d]] = inverse c d a b zero one one zero ∧
        mluRows t mode 2 [[a, b], [c, d]] = factors c d a b [1, 0, 2, 3, 4, 5, 6, 7, 8, 9, 10, 11, 12, 13, 14, 15] ∧
        msolveRows t mode 2 [[a, b], [c, d]] [[x], [y]] = solution c d a b y x)) ∧
    (∀ (n : Nat) (a : Rows), n ≤ 16 → a.length = n → (∀ r ∈ a, r.length = n) →
      (∀ l, mcholRows t mode n a = .ok l → ∀ i j, j ≤ i → i < n →
        let s := (List.range j).foldl (fun u k => less u (cell l i k) (cell l j k)) (cell a i j)
        if i = j then s.isNan = false ∧ s.isZero = false ∧ s.sign = false ∧ cell l i j = t.decode (fsqrtOf t mode false s)
        else cell l i j = quot s (cell l j j)) ∧
      ∀ w, mcholRows t mode n a = .error w → ∃ j < n, w = BitVec.ofNat 32 (2 + 256 * j) ∧
        ∃ l : Rows, (∀ i k, k ≤ i → k < j → i < n →
          let s := (List.range k).foldl (fun u q => less u (cell l i q) (cell l k q)) (cell a i k)
          cell l i k = if i = k then t.decode (fsqrtOf t mode false s) else quot s (cell l k k)) ∧
          let s := (List.range j).foldl (fun u k => less u (cell l j k) (cell l j k)) (cell a j j)
          s.isNan = true ∨ s.isZero = true ∨ s.sign = true) ∧
    ∀ (neg : Bool) (m : Nat) (e : Int), ∃ s : Nat,
      let size : Rat := m * 2 ^ e
      let x : Ext := rd (.fin neg m (e - s))
      let chain (u v : Ext) : Ext := sum (Ext.mul u v) zero
      size / 2 ^ s ≤ 1 / 2 ∧ (∀ k < s, 1 / 2 < size / 2 ^ k) ∧
      mexpRows t mode 1 [[.fin neg m e]] = [[(List.range s).foldl (fun p _ => chain p p) ([8, 7, 6, 5, 4, 3, 2, 1].foldl (fun p k =>
        sum (quot (chain x p) (.fin false k 0)) one) one)]])

/-! ### Lanes and the scratchpad (groups 0x4 and 0x5) -/

/-- Where the instruction passes the checks at issue: shfl gives each executing thread the A value of the lane that pick,
rot, shift or flip names within its tile; vote gives every, some, alike, mask or count over the executing threads of
the tile, or over the path's threads in uniform form; lead is true in the thread whose rank among the tile's executing
threads is A mod 32; rebal gives item t of the tile's row lengths its row's lane and place, or all ones and t - N;
part sets PART of the issuing path from its next instruction, and traps with reason 0x04 for a value that is no tile
width. (12_control_isa.md, R266, R267, R269, R270, R271) -/
def Obligations.LaneMovesAndVotes : Prop :=
  ∀ (h : Head) (m : ModA),
    Writes (.shfl h m) (fun x => x.each (fun l =>
      let W := x.partW
      let j := l % W
      let base := l - j
      let n := x.bCount l
      let k := x.bInt .i32 l
      let src : Nat := match m.sub.toNat with
        | 0 => base + n % W
        | 1 => base + (j + n) % W
        | 2 => if 0 ≤ (j : Int) - k ∧ (j : Int) - k < W then ((l : Int) - k).toNat else l
        | _ => base + Nat.xor j (n % W)
      x.out m.ty l (x.val x.h.a m.ty src) (x.f.b.poisoned x.e.a x.h.a src))) ∧
    Writes (.vote h m) (fun x => x.each (fun l =>
      let e := if x.h.uni then lanesOf x.f.p.mask else x.sameTile l
      let v := x.val x.h.a m.ty
      let pz := x.anyA e
      match m.sub.toNat with
      | 0 => x.outPred l (e.all (fun j => v j == 1)) pz
      | 1 => x.outPred l (e.any (fun j => v j == 1)) pz
      | 2 => x.outPred l (e.all (fun j => e.all (fun k => v j == v k))) pz
      | 3 => x.out .n32 l (maskOf (fun j => e.contains j && v j == 1)).toNat pz
      | _ => x.out .n32 l (e.countP (fun j => v j == 1)) pz)) ∧
    Writes (.lead h m) (fun x => x.each (fun l =>
      x.outPred l (decide ((x.sameTile l).countP (fun j => decide (j < l)) = x.val x.h.a .n32 l % 32)) false)) ∧
    (∀ (s : State) (x : Iss), s.passes (.rebal h m) = some x → ∃ r : Nat → Nat × Nat,
      (∀ l ∈ x.lanes,
        let e := x.sameTile l
        let len (j : Nat) : Nat := x.val x.h.a .n32 j % 2 ^ 32
        let P (j : Nat) : Nat := ((e.filter (fun i => decide (i < j))).map len).sum
        let N := (e.map len).sum
        let t := x.bCount l
        if t < N then (r l).1 ∈ e ∧ 0 < len (r l).1 ∧ P (r l).1 ≤ t ∧ t < P (r l).1 + len (r l).1 ∧ (r l).2 = t - P (r l).1
        else r l = (0xFFFF_FFFF, t - N)) ∧
      exec (.rebal h m) s = .next (s.apply x (.write (x.each (fun l =>
        let pz := (x.sameTile l).any x.marked
        x.outWords l [{ val := BitVec.ofNat 32 (r l).1, pz := pz }, { val := BitVec.ofNat 32 (r l).2, pz := pz }])) s))) ∧
    (∀ (s : State) (x : Iss), s.passes (.part h m) = some x → x.lanes ≠ [] →
      let v := x.val x.h.a .n32 0
      (v ∈ [1, 2, 4, 8, 16, 32] → exec (.part h m) s = .next (s.apply x (.sent (s.updBeam x.f.core x.f.slot (fun b =>
        { b with flow := b.flow.setRun (fun p => { p with part := BitVec.ofNat 32 v }) }))))) ∧
      (v ∉ [1, 2, 4, 8, 16, 32] → exec (.part h m) s = .next (s.apply x (.trap { cause := 0x01, reason := 0x04 }))))

/-- Where the instruction passes the checks at issue, red gives each executing thread the reduction of A over its tile's
executing threads, scan over those at lanes up to its own: the exact sum reduced modulo 2^w, clamped under .sat, or
rounded once in rne; the minimum or maximum by typed value or ranked with -0 below +0 and NaN ignored; or the bitwise
combination. topk writes k pairs of index and weight: distinct indices below L, each ranking before the next and
before every index not chosen (numbers before NaN, larger first, ties by index); a NaN weighs 0, infinities share 1
equally, and with only minus infinities chosen the numbers share 1 equally; beside a finite logit a minus infinity
weighs 0, and finite logits that are all equal share 1 equally, a single one among them weighing 1. Weights of unequal
finite logits are not fixed here. The canonical NaN of a reduction of NaNs alone (entry 22 of the log) and the poison
of a whole topk tile (entry 26) are the model's choices. (12_control_isa.md, R268, R272, R273) -/
def Obligations.LaneReductionsAndTopk : Prop :=
  ∀ (h : Head) (m : ModA),
    (∀ (s : State) (x : Iss), s.passes (.redLane h m) = some x → ∃ r : Nat → Nat,
      (∀ l ∈ x.lanes, Reduced m.ty m.sat m.sub.toNat ((x.sameTile l).map (x.val x.h.a m.ty)) (r l)) ∧
      exec (.redLane h m) s = .next (s.apply x (.write (x.each (fun l =>
        x.out m.ty l (r l) ((x.sameTile l).any x.marked))) s))) ∧
    (∀ (s : State) (x : Iss), s.passes (.scan h m) = some x → ∃ r : Nat → Nat,
      (∀ l ∈ x.lanes, Reduced m.ty m.sat m.sub.toNat
        (((x.sameTile l).filter (fun j => decide (j ≤ l))).map (x.val x.h.a m.ty)) (r l)) ∧
      exec (.scan h m) s = .next (s.apply x (.write (x.each (fun l =>
        x.out m.ty l (r l) (x.anyA ((x.sameTile l).filter (fun j => decide (j ≤ l)))))) s))) ∧
    (∀ (s : State) (x : Iss) n, s.passes (.topk h m) = some x → x.h.a = .v n →
      let L := x.h.imm.toNat % 2 ^ 5
      let K := x.h.imm.toNat / 2 ^ 8 % 2 ^ 4
      ∃ (idx : Nat → List Nat) (w : Nat → List Nat),
        (∀ l ∈ x.lanes,
          let v (i : Nat) : Ext := Ty.f32.decode (x.f.b.vreg l (n.toNat + i)).val.toNat
          (idx l).length = K ∧ (w l).length = K ∧ (idx l).Nodup ∧ (∀ i ∈ idx l, i < L) ∧
          (idx l).Pairwise (fun i j => ranksBefore v i j = true) ∧
          (∀ i ∈ idx l, ∀ j < L, j ∉ idx l → ranksBefore v i j = true) ∧
          let infs := (idx l).countP (fun i => v i == .inf false)
          let nums := (idx l).countP (fun i => !(v i).isNan)
          ∀ p ∈ (idx l).zip (w l),
            (infs ≠ 0 → p.2 = if v p.1 = .inf false then fdivide .f32 .rne false (.fin false 1 0) (.fin false infs 0) else 0) ∧
            ((v p.1).isNan = true → p.2 = 0) ∧
            (infs = 0 → (∀ i ∈ idx l, finite (v i) = false) → (v p.1).isNan = false →
              p.2 = fdivide .f32 .rne false (.fin false 1 0) (.fin false nums 0)) ∧
            (infs = 0 → (∃ i ∈ idx l, finite (v i) = true) → v p.1 = .inf true → p.2 = 0) ∧
            (infs = 0 → finite (v p.1) = true → (∀ i ∈ idx l, finite (v i) = true → numberOf (v i) = numberOf (v p.1)) →
              p.2 = fdivide .f32 .rne false (.fin false 1 0) (.fin false ((idx l).countP (fun i => finite (v i))) 0))) ∧
        exec (.topk h m) s = .next (s.apply x (.write (x.each (fun l =>
          x.outWords l ((((idx l).zip (w l)).map (fun p => [p.1, p.2])).flatten.map (fun y =>
            { val := BitVec.ofNat 32 y, pz := (x.sameTile l).any x.marked })))) s)))

/-- Where ld, lds, st or sts passes the checks at issue, some thread executes and nothing holds it: if every executing
thread's offset is a multiple of the access size and within the allocation, ld and lds put in flight the s bytes at
the offset in registers of 4 bytes, little-endian, zero above, each poisoned where its word is. A load that acquires
reads them as they stand, and after it the core's loads see no older bytes; a relaxed one reads, of an 8-byte word
that its thread still has as it was, those bytes and that mark; st and sts leave the allocation such that a byte
covered by a lane's store holds the byte of the highest covering lane's registers and every other byte and the poison
of every word no store touches are unchanged; a store of less than 8 bytes from a poisoned register marks the word it
touches, and otherwise leaves its mark, and of wider ones the highest lane that covers a word marks it where a
register it stores there is poisoned, and clears its mark where both are clean. After an access its threads have no
older bytes of the words touched, so that a later load of theirs reads none older than it. Otherwise the beam takes
the scratchpad-access fault of the lowest failing lane and no byte moves. The model's choices: accesses act at their
issue and hold for acquires (log entry 14); older bytes are those that a thread has kept, and are given up after an
acquire (124). (08_memory.md, 09_ordering_qa.md, 10_memory_isa.md, R176, R177, R179, R198, R200, R209, R210, R214,
R384) -/
def Obligations.ScratchpadLoadsAndStores : Prop :=
  ∀ (h : Head) (m : ModM),
    (∀ i ∈ [Instr.ld h m, .lds h m], ∀ (s : State) (x : Iss), s.passes i = some x → x.lanes ≠ [] → s.memHold x false false = false →
      ((∀ l ∈ x.lanes, SpadOk x m.bytes l) →
        let acquires : Prop := m.ord = .acq ∨ m.ord = .ar
        (acquires → exec i s = .next (s.apply x (.send (x.each (fun l => x.outWords l ((List.range ((m.bytes + 3) / 4)).map (fun k =>
          { val := BitVec.ofNat 32 (leNat (Memory.readN x.f.t.spad (x.spadAt l + 4 * k) (min 4 (m.bytes - 4 * k))))
            pz := x.f.t.spadPz.contains ((x.spadAt l + 4 * k) / 8) })))) (s.seeNow x.f.core)))) ∧
        (¬acquires → exec i s = .next (s.apply x (.send (x.each (fun l => x.outWords l ((List.range ((m.bytes + 3) / 4)).map (fun k =>
          let a := x.spadAt l + 4 * k
          { val := BitVec.ofNat 32 (leNat ((List.range (min 4 (m.bytes - 4 * k))).map (fun j => (s.spadSeen x l (a + j)).1)))
            pz := (s.spadSeen x l a).2 })))) (s.givenUp x m.bytes))))) ∧
      (∀ l ∈ x.lanes, ¬SpadOk x m.bytes l → (∀ k ∈ x.lanes, k < l → SpadOk x m.bytes k) →
        exec i s = .next (s.apply x (.trap (spadTrap x l m.bytes))))) ∧
    (∀ i ∈ [Instr.st h m, .sts h m], ∀ (s : State) (x : Iss), s.passes i = some x → x.lanes ≠ [] →
      s.memHold x true (Ordr.releases m.ord) = false →
      ((∀ l ∈ x.lanes, SpadOk x m.bytes l) → ∃ t : Team,
        exec i s = .next (s.apply x (.sent ((s.givenUp x m.bytes).updTeam x.f.core x.f.b.resp (fun _ => t)))) ∧
        t = { x.f.t with spad := t.spad, spadPz := t.spadPz } ∧
        (∀ a, (∀ l ∈ x.lanes, a < x.spadAt l ∨ x.spadAt l + m.bytes ≤ a) → Memory.read t.spad a = Memory.read x.f.t.spad a) ∧
        (∀ g, (∀ l ∈ x.lanes, 8 * g + 8 ≤ x.spadAt l ∨ x.spadAt l + m.bytes ≤ 8 * g) →
          (g ∈ t.spadPz ↔ g ∈ x.f.t.spadPz)) ∧
        (m.bytes < 8 → ∀ g, g ∈ t.spadPz ↔ g ∈ x.f.t.spadPz ∨
          ∃ l ∈ x.lanes, x.spadAt l < 8 * g + 8 ∧ 8 * g < x.spadAt l + m.bytes ∧ (x.f.b.reg x.h.d l 0).pz = true) ∧
        (8 ≤ m.bytes → ∀ g, ∀ l ∈ x.lanes, x.spadAt l ≤ 8 * g → 8 * g + 8 ≤ x.spadAt l + m.bytes →
          (∀ j ∈ x.lanes, l < j → 8 * g + 8 ≤ x.spadAt j ∨ x.spadAt j + m.bytes ≤ 8 * g) →
          (g ∈ t.spadPz ↔ ∃ k < 2, (x.f.b.reg x.h.d l ((8 * g - x.spadAt l) / 4 + k)).pz = true)) ∧
        (∀ l ∈ x.lanes, ∀ k < m.bytes,
          (∀ j ∈ x.lanes, l < j → x.spadAt l + k < x.spadAt j ∨ x.spadAt j + m.bytes ≤ x.spadAt l + k) →
          Memory.read t.spad (x.spadAt l + k) =
            BitVec.ofNat 8 ((x.f.b.reg x.h.d l (k / 4)).val.toNat / 2 ^ (8 * (k % 4))))) ∧
      (∀ l ∈ x.lanes, ¬SpadOk x m.bytes l → (∀ k ∈ x.lanes, k < l → SpadOk x m.bytes k) →
        exec i s = .next (s.apply x (.trap (spadTrap x l m.bytes)))))

/-- Where atoms or reds passes the checks at issue, some thread executes and nothing holds it: if every executing thread's
offset is a multiple of the size, within the allocation and on a word without poison, the lanes' read-modify-writes
are applied in ascending order: each forms the new value of R216 from the value it finds, writes it, and atoms puts
the value found in flight to its D; bytes that no lane's value covers are unchanged, and the threads have no older
bytes of the words touched. Otherwise the lowest failing lane traps: the scratchpad-access fault, or the poison trap
with the word's offset. That they act at their issue on the bytes as they stand (entries 14 and 124 of the log) and
the rounding of a poisoned word's offset (entry 43) are the model's choices. (10_memory_isa.md, R177, R216, R217,
R218) -/
def Obligations.ScratchpadAtomics : Prop :=
  (∀ (h : Head) (m : ModMA), ∀ i ∈ [(Instr.atoms h m, true), (.reds h m, false)], ∀ (s : State) (x : Iss), s.passes i.1 = some x → x.lanes ≠ [] →
    s.memHold x true false = false →
    let n := m.ty.width / 8
    let clean (l : Nat) : Prop := x.spadAt l / 8 ∉ x.f.t.spadPz
    ((∀ l ∈ x.lanes, SpadOk x n l ∧ clean l) → ∃ (old : Nat → Nat) (t : Nat → Team),
      t 0 = x.f.t ∧
      (∀ l < 32, l ∉ x.lanes → t (l + 1) = t l) ∧
      (∀ l ∈ x.lanes, old l = leNat (Memory.readN (t l).spad (x.spadAt l) n) ∧
        leNat (Memory.readN (t (l + 1)).spad (x.spadAt l) n) =
          atomResult m.ty m.op (old l) (x.elem x.h.b m.ty l) (x.elem x.h.c m.ty l) ∧
        (∀ a, a < x.spadAt l ∨ x.spadAt l + n ≤ a → Memory.read (t (l + 1)).spad a = Memory.read (t l).spad a)) ∧
      t 32 = { x.f.t with spad := (t 32).spad, spadPz := (t 32).spadPz } ∧
      let s' := (s.givenUp x n).updTeam x.f.core x.f.b.resp (fun _ => t 32)
      exec i.1 s = .next (s.apply x (if i.2 then .send (x.each (fun l => x.out m.ty l (old l) false)) s' else .sent s'))) ∧
    (∀ l ∈ x.lanes, (∀ k ∈ x.lanes, k < l → SpadOk x n k ∧ clean k) →
      (¬SpadOk x n l → exec i.1 s = .next (s.apply x (.trap (spadTrap x l n)))) ∧
      (SpadOk x n l → ¬clean l → exec i.1 s = .next (s.apply x (.trap
        { cause := 0x0A, lane := l, addr := BitVec.ofNat 64 (x.spadAt l / 8 * 8) }))))) ∧
  (∀ (t : Ty) (op : AtomOp) (old b c : Nat), t ∈ [Ty.i32, .n32, .i64, .n64, .f32, .f64] → old < 2 ^ t.width → b < 2 ^ t.width →
    (t.isFloat = true → op ∉ [AtomOp.min, .max, .and, .or, .xor]) → (t.isFloat = false → op ∉ [AtomOp.fmin, .fmax]) →
    atomNew t op old b c = atomResult t op old b c)

/-! ### Global memory (group 0x6) -/

/-- A walk with PTROOT 0, or of an address with bits 63 to 56 set, has no translation. A walk that answers a leaf found it
at level 1, 2 or 3 with V and LEAF set, its ADDR aligned to its page size, and for DEV 0 the whole page in the places
of R342. A walk through tables at levels 0 to 2, each entry valid, with its res0 fields zero, its ADDR aligned to the
next table and that table in the segments, answers a leaf at level 1, 2 or 3 whose fields, alignment and page are
good, with the page size of its level, and otherwise faults; so does a poisoned entry, which is the model's choice
(log entry 47). An access placed on this package has the rights it needs in its leaf, its address is the page's plus
the offset in the page, and its bytes lie in the places of R342, in a shared range with write permission if it writes;
an access placed on another device has its rights and a valid peer entry with a port. An access without its rights
answers code 0x2, or 0x1 where its peer entry is not valid. (16_isolation.md, R342, R344, R345, R346, R347, R348) -/
def Obligations.TranslationStaysInItsPlaces : Prop :=
  (∀ (s : State) (v va : Nat) (d : VDev), s.vds.look v = some d →
    (d.ptroot = 0 → s.walk v va = none) ∧
    (∀ core n need missed, 2 ^ 56 ≤ va → (s.resolveHeld core v va n need missed).1 = some (.fail 1)) ∧
    (∀ lo e, s.walk v va = some (lo, e) → (lo = 30 ∨ lo = 21 ∨ lo = 16) ∧ e.testBit 0 ∧ e.testBit 1 ∧
      (e / 2 ^ 8 % 2 ^ 40 * 2 ^ 8) % 2 ^ lo = 0 ∧
      (e / 2 ^ 59 % 2 ^ 5 = 0 → Reachable s v d (e / 2 ^ 8 % 2 ^ 40 * 2 ^ 8) (2 ^ lo)) ∧
      (e / 2 ^ 59 % 2 ^ 5 ≠ 0 → e / 2 ^ 8 % 2 ^ 40 = 0))) ∧
  (∀ (s : State) (v va : Nat) (d : VDev) (t : Nat → Nat) (k : Nat), s.vds.look v = some d → d.ptroot ≠ 0 → t 0 = d.ptroot → k < 4 →
    let entry (l : Nat) : Nat := t l + 8 * slice va ([43, 30, 21, 16].getD l 0) ([13, 13, 9, 5].getD l 0)
    let e (l : Nat) : Nat := leNat (Memory.readN s.mem (entry l) 8)
    let addr (l : Nat) : Nat := 256 * slice (e l) 8 40
    let aligned (l n : Nat) : Prop := addr l % 2 ^ n = 0
    let valid (l : Nat) : Prop := (e l).testBit 0 = true ∧ s.linePoisoned (entry l) 8 = false ∧ slice (e l) 48 11 = 0 ∧ slice (e l) 6 2 = 0 ∧
      ((e l).testBit 1 = false → slice (e l) 59 5 = 0 ∧ slice (e l) 2 4 = 0) ∧ ((e l).testBit 1 = true → slice (e l) 59 5 = 0 ∨ slice (e l) 8 40 = 0)
    let table (l : Nat) : Prop := valid l ∧ (e l).testBit 1 = false ∧ l < 3 ∧ aligned l ([16, 12, 8].getD l 0) ∧
      ∀ b, addr l ≤ b → b < addr l + 2 ^ [16, 12, 8].getD l 0 → b / 2 ^ 30 ∈ d.segments
    let page (l : Nat) : Prop := valid l ∧ (e l).testBit 1 = true ∧ 0 < l ∧ aligned l ([43, 30, 21, 16].getD l 0) ∧
      (slice (e l) 59 5 = 0 → Reachable s v d (addr l) (2 ^ [43, 30, 21, 16].getD l 0))
    (∀ l < k, table l ∧ t (l + 1) = addr l) →
      (page k → s.walk v va = some ([43, 30, 21, 16].getD k 0, e k)) ∧ (¬table k → ¬page k → s.walk v va = none)) ∧
  (∀ (s : State) (v va n : Nat) (d : VDev) (t : Trans) (need : Rights), s.vds.look v = some d →
    let leaf := t.leaf.toNat
    let dev := leaf / 2 ^ 59 % 2 ^ 5
    (∀ pa, s.place v t va n need = .here pa → dev = 0 ∧ Allows leaf need ∧
      pa = leaf / 2 ^ 8 % 2 ^ 40 * 2 ^ 8 + va % 2 ^ t.log ∧ Reachable s v d pa n ∧
      (need.w = true → s.grant v pa n ≠ some false)) ∧
    (∀ k, s.place v t va n need = .peer k → k = dev ∧ dev ≠ 0 ∧ Allows leaf need ∧
      (d.peers.getD dev 0).getLsbD 0 = true ∧ (d.peers.getD dev 0).toNat / 2 ^ 32 % 2 ^ 8 ≠ 0) ∧
    (¬Allows leaf need → s.place v t va n need = .fail 2 ∨ (dev ≠ 0 ∧ s.place v t va n need = .fail 1)))

/-- With no executing thread lda, str, atom and red complete. With an acquire of the threads in flight, or a copy or ovl
that comes before them and has reads due, nothing happens. Otherwise the lanes' addresses (A plus B sign-extended for
lda and str, A for atomics, modulo 2^64) are resolved in ascending order. An atomic with a poisoned value operand, its
translations at hand, takes the protection fault of the lowest such lane whose bytes lie on another device or in a
shared range, or else the poison trap. Where every lane is aligned and finds an allowing translation in the core's
cache, and no poison stands in the way, the instruction completes with the access put in flight: one entry a lane, in
order, with its data, after every earlier access of its threads if it releases; lda and atom empty D and put a result
in flight; all else in flight, other beams and memory are as before, but for lines an atomic finds lost behind a shut
port. Where a lane fails, the lowest such lane's trap is taken: 0x09 (alignment), 0x07 (translation), 0x08
(protection), 0x0A (poisoned line), with the lane's address, and nothing is put in flight. Where a translation is not
at hand before any lane fails, the instruction waits for a walk. The model's choices: the holds (log entries 34, 109),
the walk begun or joined by the issue (38), a shut port found by atomics only (69), the lane's address in %taddr at a
poisoned line too (140), the order of the faults of poison (176). (08_memory.md, 10_memory_isa.md, R180, R192, R193,
R194, R206, R209, R216, R220, R353, R386) -/
def Obligations.GlobalAccessesIssue : Prop :=
  let forms (h : Head) : List ((ModG → ModMA → Instr) × (ModG → ModMA → GKind)) :=
    [(fun g _ => .lda h g, fun _ _ => .load), (fun g _ => .str h g, fun _ _ => .store),
     (fun _ a => .atom h a, fun _ a => .rmw a.op a.ty true), (fun _ a => .redGlobal h a, fun _ a => .rmw a.op a.ty false)]
  ∀ (h : Head), ∀ i ∈ forms h, ∀ (g : ModG) (a : ModMA) (s : State) (x : Iss), s.passes (i.1 g a) = some x →
    (x.lanes = [] → exec (i.1 g a) s = .next (s.apply x (.sent s))) ∧
    (x.lanes ≠ [] →
      let kind : GKind := i.2 g a
      let write := decide (kind ≠ .load)
      let atomic : Bool := match kind with | .rmw _ _ _ => true | _ => false
      let n : Nat := (if atomic then a.ty.width else g.ty.width) / 8
      let ord : Ordr := if atomic then a.ord else g.ord
      let scope : Scope := if atomic then a.scope else g.scope
      let want : Nat → Want := match kind with
        | .load => wantLoad x
        | .store => wantStore g.ty.wide x
        | .rmw _ ty _ => wantAtomic ty x
      let need : Rights := { r := !write, w := write, a := atomic }
      let held : Prop := s.acquiring x x.threads = true ∨ s.readsBefore x x.threads = true
      let bad (k : Nat) : Prop := atomic = true ∧ (x.f.b.poisoned x.e.b x.h.b k = true ∨ x.f.b.poisoned x.e.c x.h.c k = true)
      let out (k : Nat) (leaves : Bool) : Prop := (want k).va % n = 0 ∧ (want k).va < 2 ^ 56 ∧
        ∃ tr, cached (s.core x.f.core).tlb x.f.t.vd (want k).va = some tr ∧ s.leaks x.f.t.vd (s.place x.f.t.vd tr (want k).va n need) n = leaves
      ((∃ k ∈ x.lanes, bad k) → (∀ k ∈ x.lanes, bad k → out k false) → ∃ e : Trap, e.cause = 0x0A ∧ e.addr = 0 ∧ bad e.lane ∧ e.lane ∈ x.lanes ∧
        exec (i.1 g a) s = .next (s.apply x (.trapIn e s))) ∧
      (∀ k ∈ x.lanes, bad k → out k true → (∀ j ∈ x.lanes, j < k → bad j → out j false) →
        exec (i.1 g a) s = .next (s.apply x (.trapIn { cause := 0x08, lane := k, addr := BitVec.ofNat 64 (want k).va } s))) ∧
      (held → (∀ k ∈ x.lanes, ¬bad k) → exec (i.1 g a) s = .next s) ∧
      (¬held → (∀ k ∈ x.lanes, ¬bad k) →
        ((∀ k ∈ x.lanes, AtHand s x n need atomic (want k)) → ∃ l, s.gLanes x n need atomic (x.lanes.map want) = (.ok l, s) ∧
          exec (i.1 g a) s = .next (s.apply x (.sent (s.sendG x kind n l ord scope)))) ∧
        (∀ l t, s.gLanes x n need atomic (x.lanes.map want) = (.ok l, t) →
          let u := t.sendG x kind n l ord scope
          exec (i.1 g a) s = .next (s.apply x (.sent u)) ∧
          l.map (fun e => (e.lane, e.va, e.val)) =
            x.lanes.map (fun k => (if x.h.uni then 32 else k, (want k).va, BitVec.ofNat 64 (want k).val)) ∧
          (∀ e ∈ l, e.va % n = 0) ∧ SameFlight s t ∧ OnlyLost s t ∧ (atomic = false → t.mem = s.mem) ∧
          u = { t with gops := u.gops, fills := u.fills, cores := u.cores, nextId := u.nextId } ∧ t.walks = s.walks ∧ t.arrivals = s.arrivals ∧
          t.ovls = s.ovls ∧ (∀ core slot, (core, slot) ≠ (x.f.core, x.f.slot) → u.beam? core slot = s.beam? core slot) ∧
          ∃ f : GOp, u.gops = s.gops ++ [f] ∧ f.beam = x.ref ∧ f.kind = kind ∧ f.size = n ∧ f.lanes = l ∧ f.ord = ord ∧ f.scope = scope ∧
            f.got = [] ∧ f.done = !(l.any (fun e => e.dev == 0)) ∧ f.acked = l.all (fun e => e.dev == 0) ∧ u.mem = t.mem ∧
            (Ordr.releases ord = true → ∀ o ∈ s.undone x x.threads, o.id ∈ f.after) ∧
            (f.dest = none → u.fills = s.fills) ∧
            (kind = .load ∨ (∃ o ty, kind = .rmw o ty true) → ∃ r : Fill, u.fills = s.fills ++ [r] ∧ f.dest = some r.id ∧ r.gop = some f.id ∧
              r.beam = x.ref ∧ r.names = x.written ∧ u.beam? x.f.core x.f.slot = some (x.f.b.empty x.written))) ∧
        (∀ e t, s.gLanes x n need atomic (x.lanes.map want) = (.trap e, t) →
          exec (i.1 g a) s = .next (s.apply x (.trapIn e t)) ∧ SameFlight s t ∧ OnlyLost s t ∧ (atomic = false → t.mem = s.mem) ∧
          e.cause ∈ [0x07, 0x08, 0x09, 0x0A] ∧
          ∃ k ∈ x.lanes, e.lane = k ∧ (e.cause = 0x09 ↔ (want k).va % n ≠ 0) ∧
            e.addr = BitVec.ofNat 64 (want k).va ∧
            ∃ l v, s.gLanes x n need atomic ((x.lanes.filter (fun j => decide (j < k))).map want) = (.ok l, v) ∧
              v.gLane x n need atomic (want k) = (.trap e, t)) ∧
        (∀ t, s.gLanes x n need atomic (x.lanes.map want) = (.walk, t) →
          exec (i.1 g a) s = .next t ∧ SameFlight s t ∧ OnlyLost s t ∧ (atomic = false → t.mem = s.mem) ∧
          ∃ k ∈ x.lanes, ∃ w ∈ t.walks, (x.ref, (want k).va) ∈ w.beams)))

/-- A write or read-modify-write whose predecessors are done and whose ports are in is performed: its lanes on this
package in order, a store writing its bytes little-endian and an atomic the new value of R216 for the value it finds,
every byte that no lane covers unchanged; it is then done, and what each lane found stands ready where it is returned
or other devices' acknowledgements are awaited. What an atomic found is written to D by its result, once all of it is
performed and acknowledged and not before. A load is performed as its result arrives: its registers get the bytes of
memory, poisoned where the line is, or, if it is no acquire, for each lane whose thread still has older bytes, those
bytes with the mark their line had; they are full, and memory is unchanged. Another device's acknowledgement settles
its lanes, refused or not, with free data returned. Before its predecessors are done nothing happens. In a performance
or an acknowledgement every beam stands and only what it waits for changes; a barrier that waited for the writes of an
ended beam may wake its sleepers. The model's choices: a refusal changes nothing more (log entry 89), what another
device returns is free data (log entry 8), which older bytes a thread still has is named from outside (log entries 103
and 124). (08_memory.md, 09_ordering_qa.md, R185, R192, R198, R206, R217, R245) -/
def Obligations.GlobalAccessesPerformed : Prop :=
  (∀ (s : State) (id : Nat) (g : GOp), s.gops.find? (fun o => o.id == id) = some g →
    (s.gReady g = false → exec (.globalWritePerformed id) s = .next s ∧ ∀ refused, exec (.remoteWriteAck id refused) s = .next s)) ∧
  (∀ (s : State) (id : Nat) (g : GOp), s.gops.find? (fun o => o.id == id) = some g → g.done = false → g.kind ≠ .load →
    s.gReady g = true → (∀ a ∈ g.here, s.shut a.pa = false) →
    ∃ (t : State) (m : Nat → Memory) (old : Nat → Nat), exec (.globalWritePerformed id) s = .next t ∧ m 0 = s.mem ∧
      t.mem = m g.here.length ∧
      (∀ k a, g.here[k]? = some a →
        old k = leNat (Memory.readN (m k) a.pa g.size) ∧
        (∀ b, b < a.pa ∨ a.pa + g.size ≤ b → Memory.read (m (k + 1)) b = Memory.read (m k) b) ∧
        leNat (Memory.readN (m (k + 1)) a.pa g.size) =
          (match g.kind with
            | .rmw op ty _ => atomNew ty op (old k) a.val.toNat a.cmp.toNat
            | _ => a.val.toNat) % 2 ^ (8 * g.size)) ∧
      SameBeams s t ∧ t.fills = s.fills ∧
      (∀ f ∈ t.gops, f.id = id → f.done = true) ∧
      (g.acked = false ∨ g.dest ≠ none → ∃ f ∈ t.gops, f.id = id ∧ f.got.map (fun e => (e.1, e.2.1)) =
        g.got.map (fun e => (e.1, e.2.1)) ++ g.here.mapIdx (fun k a => (a.lane, BitVec.ofNat 64 (old k))))) ∧
  (∀ (s : State) (id gid : Nat) (f : Fill) (g : GOp) (b : Beam), s.fills.find? (fun o => o.id == id) = some f →
    f.prism = none → s.moves.any (fun m => m.fill == id) = false → f.gop = some gid →
    s.gops.find? (fun o => o.id == gid) = some g → g.kind = .load → g.acked = true → s.gReady g = true → g.got = [] →
    (∀ a ∈ g.lanes, a.dev = 0 ∧ s.shut a.pa = false) → s.ref? f.beam = some b →
    let late (a : LaneAcc) : Option Older := if Ordr.acquires g.ord then none else (s.core g.beam.core).older.find? (fun e =>
      !e.spad && e.slot == g.beam.slot && e.thread == a.lane && e.gran == a.pa / 8)
    let gives (l : List LaneAcc) (v : LaneAcc → Nat) (pz : LaneAcc → Bool) : Prop := ∃ t b', exec (.registerFill id) s = .next t ∧ t.mem = s.mem ∧
      t.fills = s.fills.filter (fun o => o.id != id) ∧
      t.gops = s.gops.filter (fun o => o.id != gid) ∧ t.ref? f.beam = some b' ∧
      b' = { (b.write (RegOut.all (l.map (fun a => f.names.words (a.lane % 32) ({ val := BitVec.ofNat 32 (v a), pz := pz a } ::
          (if g.size = 8 then [{ val := BitVec.ofNat 32 (v a % 2 ^ 64 / 2 ^ 32), pz := pz a }] else [])))))).full f.names with
          drain := b'.drain }
    let now (a : LaneAcc) : Nat := leNat (Memory.readN s.mem a.pa g.size)
    let then_ (e : Older) (a : LaneAcc) : Nat := leNat ((e.data.drop (a.pa % 8)).take g.size)
    ((∀ a ∈ g.lanes, late a = none) → gives g.lanes now (fun a => s.linePoisoned a.pa g.size)) ∧
    ((∀ a ∈ g.lanes, (late a).isSome) → gives g.lanes (fun a => (late a).elim 0 (then_ · a)) (fun a => (late a).elim false (·.pz))) ∧
    ((g.lanes.map (·.lane)).Nodup →
      gives (g.lanes.filter (fun a => (late a).isSome) ++ g.lanes.filter (fun a => (late a).isNone))
        (fun a => (late a).elim (now a) (then_ · a)) (fun a => (late a).elim (s.linePoisoned a.pa g.size) (·.pz)))) ∧
  (∀ (s : State) (id gid : Nat) (f : Fill) (g : GOp) (b : Beam) (op : AtomOp) (ty : Ty) (ret : Bool), s.fills.find? (fun o => o.id == id) = some f →
    f.prism = none → s.moves.any (fun m => m.fill == id) = false → f.gop = some gid → s.gops.find? (fun o => o.id == gid) = some g →
    g.kind = .rmw op ty ret → s.ref? f.beam = some b →
    (g.done = false ∨ g.acked = false → exec (.registerFill id) s = .next s) ∧
    (g.done = true → g.acked = true → ∃ t b', exec (.registerFill id) s = .next t ∧ t.mem = s.mem ∧
      t.fills = s.fills.filter (fun o => o.id != id) ∧ t.gops = s.gops.filter (fun o => o.id != gid) ∧ t.ref? f.beam = some b' ∧
      b' = { (b.write (RegOut.all (g.got.map (fun e => f.names.words (e.1 % 32) ({ val := BitVec.ofNat 32 e.2.1.toNat, pz := e.2.2 } ::
          (if g.size = 8 then [{ val := BitVec.ofNat 32 (e.2.1.toNat / 2 ^ 32), pz := e.2.2 }] else [])))))).full f.names with
          drain := b'.drain })) ∧
  (∀ (s : State) (id : Nat) (refused : Bool) (g : GOp), s.gops.find? (fun o => o.id == id) = some g → g.acked = false →
    s.gReady g = true → (∀ a ∈ g.lanes, a.dev ≠ 0 → s.link g.vd a.dev ≠ .calibrating) →
    ∃ t, exec (.remoteWriteAck id refused) s = .next t ∧ t.mem = s.mem ∧ t.fills = s.fills ∧ SameBeams s t ∧
      (∀ f ∈ t.gops, f.id = id → f.acked = true) ∧
      (g.dest ≠ none ∨ g.done = false → ∃ f ∈ t.gops, f.id = id ∧
        f.got.map (·.1) = g.got.map (·.1) ++ (g.lanes.filter (fun a => a.dev != 0)).map (·.lane)))

/-- Where a copy instruction passes the checks at issue, some thread executes and nothing holds it: if every lane's
scratchpad end is aligned to the size and within the allocation (bcopy: the descriptor is not bad and every row fits),
a copy is put in flight with one row a lane (bcopy: n2 * n1 rows, row j * n1 + i at GADDR + j * GS2 + i * GS1 and SOFF
+ j * SS2 + i * SS1), whose D is emptied; the row of a copy out holds the bytes read from the scratchpad at issue. An
ncopy's row holds what its source word names, at the offset of bits 18:0 in the allocation of its cluster's team at
the position of bits 31:28, or has failed with 0x3 where that offset is misaligned and with 0x1 where no such team is
there or the bytes are not within its allocation. A bcopy.out with an arrival word whose translation is not at hand
waits for a walk instead; a misaligned word is the copy's failure 0x3, one of 2^56 or more its failure 0x1, and one
that its page allows is the word the copy counts in. Otherwise the beam takes the scratchpad-access fault of the
lowest failing lane, or of the lowest failing row, with lane 0, with the offset where it is misaligned and else the
lowest byte out of range, or, for a bad descriptor, the descriptor fault. svst writes the variables of the launch's
context, lane by lane. Memory stays, but for lines of a copy in that are found lost behind a shut port and read zero.
The model's choices: a copy out and an ncopy read scratchpads as they stand at issue (log entries 14, 39), with an
ncopy's word marked where its source is (41), and the wait for a walk (38). (10_memory_isa.md, R221, R222, R223, R224,
R227) -/
def Obligations.CopiesIssue : Prop :=
  let zeroed (s u : State) : Prop := ∀ b, Memory.read u.mem b = Memory.read s.mem b ∨ (Memory.read u.mem b = 0 ∧ b / 64 ∈ u.linePz)
  (∀ (h : Head) (m : ModX), ∀ i ∈ [(Instr.copy h m, CopyKind.lanes), (.ncopy h m, .near)], ∀ (s : State) (x : Iss), s.passes i.1 = some x →
    x.lanes ≠ [] → s.copyHold x = false →
    let n := 2 ^ (2 + m.size.toNat)
    let off (l : Nat) : Nat := x.val x.h.b .n32 l % 2 ^ 32
    let ok (l : Nat) : Prop := off l % n = 0 ∧ off l + n ≤ x.f.t.decl.spad
    let out := decide (i.2 = .lanes) && m.out
    ((∀ l ∈ x.lanes, ok l) → ∃ (u : State) (c : Copy), exec i.1 s = .next (s.apply x (.sent u)) ∧ u.copies = s.copies ++ [c] ∧
      (out = true ∨ i.2 = .near ∨ (∀ a, s.shut a = false) → u.mem = s.mem) ∧ zeroed s u ∧
      u.beam? x.f.core x.f.slot = some (x.f.b.empty x.written) ∧ c.kind = i.2 ∧ c.out = out ∧ c.names = x.written ∧
      c.counter = (if out || x.h.c == .none then none else some (x.val x.h.c .n32 0 % 64)) ∧
      c.rows.map (fun r => (r.key, r.off, r.len)) = x.lanes.map (fun l => (l, off l, n)) ∧
      (i.2 = .lanes → c.rows.map (·.va) = x.lanes.map (fun l => x.val x.h.a .n64 l) ∧
        ∀ r ∈ c.rows, (r.data = if out then Memory.readN x.f.t.spad r.off n else []) ∧
          (r.va % n ≠ 0 → r.st = .failed 3 r.va)) ∧
      (i.2 = .near → ∀ r ∈ c.rows,
        let w := x.val x.h.a .n32 r.key % 2 ^ 32
        let source (k : Nat) (tm : Team) : Prop := k ∈ s.clusterCores x.f.core x.f.b.resp ∧ k % 16 = w / 2 ^ 28 ∧
          (s.core k).teamIn x.f.b.resp = some tm
        r.va = w ∧ (w % 2 ^ 19 % n ≠ 0 → r.st = .failed 3 w) ∧
        (w % 2 ^ 19 % n = 0 → (∀ k tm, ¬source k tm) → r.st = .failed 1 w) ∧
        (∀ k tm, source k tm → (∀ j um, source j um → j = k) → w % 2 ^ 19 % n = 0 →
          (w % 2 ^ 19 + n ≤ tm.decl.spad → r.st = .ready [{ dev := 0, addr := w % 2 ^ 19, data := Memory.readN tm.spad (w % 2 ^ 19) n
                                                            pz := tm.loadPz (w % 2 ^ 19) n }]) ∧
          (tm.decl.spad < w % 2 ^ 19 + n → r.st = .failed 1 w)))) ∧
    (∀ l ∈ x.lanes, ¬ok l → (∀ k ∈ x.lanes, k < l → ok k) →
      exec i.1 s = .next (s.apply x (.trap
        { cause := 0x06, lane := l, addr := BitVec.ofNat 64 (if off l % n ≠ 0 then off l else max (off l) x.f.t.decl.spad) })))) ∧
  (∀ (h : Head) (m : ModX) (s : State) (x : Iss), s.passes (.bcopy h m) = some x → x.lanes ≠ [] → s.copyHold x = false →
    let k := bulkOf x.bulkWord m.size.toNat
    let ok (off : Nat) : Prop := off % 4 = 0 ∧ off + k.len ≤ x.f.t.decl.spad
    (k.bad = true → exec (.bcopy h m) s = .next (s.apply x (.trap { cause := 0x0B }))) ∧
    (k.bad = false → ∀ i j, i < k.n1 → j < k.n2 →
      let off (i j : Nat) : Nat := k.soff + j * k.ss2 + i * k.ss1
      ¬ok (off i j) → (∀ p q, p < k.n1 → q < k.n2 → q < j ∨ (q = j ∧ p < i) → ok (off p q)) →
      exec (.bcopy h m) s = .next (s.apply x (.trap
        { cause := 0x06, lane := 0, addr := BitVec.ofNat 64 (if off i j % 4 ≠ 0 then off i j else max (off i j) x.f.t.decl.spad) }))) ∧
    let word := x.val x.h.c .n64 0
    let counts : Prop := m.out = true ∧ x.h.c ≠ .none ∧ word % 4 = 0
    let near := cached (s.core x.f.core).tlb x.f.t.vd word
    (k.bad = false → (∀ r ∈ k.rows, ok r.2.2) → counts → word < 2 ^ 56 → near = none →
      cached (s.dtu.getD (dieOf x.f.core) []) x.f.t.vd word = none → word / 2 ^ 16 ∉ x.f.b.missed →
      ∃ t, exec (.bcopy h m) s = .next t ∧ SameFlight s t ∧ t.mem = s.mem ∧ ∃ w ∈ t.walks, (x.ref, word) ∈ w.beams) ∧
    (k.bad = false → (∀ r ∈ k.rows, ok r.2.2) → (counts → 2 ^ 56 ≤ word ∨ near ≠ none) →
      ∃ (u : State) (c : Copy), exec (.bcopy h m) s = .next (s.apply x (.sent u)) ∧
      u.copies = s.copies ++ [c] ∧ (m.out = true ∨ (∀ a, s.shut a = false) → u.mem = s.mem) ∧ zeroed s u ∧
      u.beam? x.f.core x.f.slot = some (x.f.b.empty x.written) ∧ c.kind = .bulk ∧
      c.out = m.out ∧ c.rows.length = k.n2 * k.n1 ∧
      (m.out = false ∨ x.h.c = .none → c.word = none ∧ c.early = none) ∧
      (m.out = true → x.h.c ≠ .none → word % 4 ≠ 0 → c.word = none ∧ c.early = some (3, word)) ∧
      (counts → 2 ^ 56 ≤ word → c.word = none ∧ c.early = some (1, word)) ∧
      (∀ tr pa, counts → word < 2 ^ 56 → near = some tr → s.place x.f.t.vd tr word 4 { w := true, a := true } = .here pa →
        c.word = some (0, pa, word) ∧ c.early = none) ∧
      ∀ i j, i < k.n1 → j < k.n2 → ∃ r, c.rows[j * k.n1 + i]? = some r ∧ r.key = j * k.n1 + i ∧ r.len = k.len ∧
        r.off = k.soff + j * k.ss2 + i * k.ss1 ∧ (r.va : Int) = ((k.gaddr : Int) + j * k.gs2 + i * k.gs1) % 2 ^ 64)) ∧
  (∀ (h : Head) (s : State) (x : Iss) (d : VDev), s.passes (.svst h) = some x → s.acquiring x x.threads = false → s.vds.look x.f.t.vd = some d →
    ∃ (t : State) (d' : VDev), exec (.svst h) s = .next (s.apply x (.sent t)) ∧ t = { s with vds := t.vds } ∧
      (∀ v, v ≠ x.f.t.vd → t.vds.look v = s.vds.look v) ∧ t.vds.look x.f.t.vd = some d' ∧ d' = { d with vars := d'.vars } ∧
      let key (l : Nat) : Nat := 32 * s.ctxOf x.f.t + x.val x.h.a .n32 l % 32
      (∀ k, (∀ l ∈ x.lanes, key l ≠ k) → d'.vars.look k = d.vars.look k) ∧
      (∀ l ∈ x.lanes, (∀ j ∈ x.lanes, l < j → key j ≠ key l) →
        d'.vars.look (key l) = some { val := BitVec.ofNat 64 (x.val x.h.b .n64 l), pz := x.pz x.h.b .n64 l }))

/-- A copy of which no row waits for a translation, whose predecessors are done and which no port and no earlier copy
holds, finishes: it leaves the copies in flight. The rows written are those that are ready and not refused, of a bcopy
those before its first failed row; the bytes of a copy-in row are in the scratchpad of its team at its offset, and
those of a copy-out row in global memory at its pieces' addresses, in row order, with the arrival word then raised by
the number of rows. Nothing else of memory changes. While its beam's generation tag matches, D is full, with for each
lane the word of code, poisoned lines and address (R186), or for bcopy the words of R187; otherwise the status is
dropped and counted. The counter that a copy in names is raised by the number of rows written, which wakes the beams
whose wait that meets, or, where the team of the copy is not its core's resident one, each of these arrivals is
dropped and counted. A page walk that its die runs and that finishes leaves the walks in flight, and each overlay load
that waited for its page has its translation or its fault. After a fault each row that waited for its page has failed
with code 0x1 and the address it stood at, and each beam that held for it knows the page as unmapped; after a success
no row waits for the page any longer. The model's choices: copies in read their sources when they are translated (log
entry 39), one dropped status is counted for a copy, not one for each lane (log entry 40), and the POISON count of an
ncopy's status says whether its words were poisoned (log entry 41); arrivals reach ordinary teams only (42); the
arrival word is raised in a poisoned line too (161); POISON is 0 beside a CODE (162); which walks run, and pages known
as unmapped (38); the hold for ports (134). (08_memory.md, 10_memory_isa.md, R186, R187, R188, R189, R193, R205, R224,
R225, R392) -/
def Obligations.CopiesFinish : Prop :=
  (∀ (s : State) (id : Nat) (given : List Nat) (c : Copy), s.copies.find? (fun o => o.id == id) = some c →
    ((∃ r ∈ c.rows, ∃ va ps bad, r.st = .walking va ps bad) ∨ (∃ k ∈ c.after, s.pending k = true) ∨ s.copiesBefore c = true ∨
      s.portsHold c = true → exec (.copyStatusFill id given) s = .next s) ∧
    ((∀ r ∈ c.rows, ∀ va ps bad, r.st ≠ .walking va ps bad) → (∀ k ∈ c.after, s.pending k = false) → s.copiesBefore c = false →
      s.portsHold c = false →
      let no := s.refusals c given
      let rows := c.written no
      ∃ t, exec (.copyStatusFill id given) s = .next t ∧ t.copies = s.copies.filter (fun o => o.id != id) ∧
        (c.rows.Pairwise (fun p q => p.key < q.key) → ∀ r, r ∈ rows ↔ r ∈ c.rows ∧ (∃ ps, r.st = .ready ps) ∧ r.key ∉ no ∧
          (c.kind = .bulk → c.early = none ∧ ∀ q ∈ c.rows, ∀ k a, q.st = .failed k a → r.key < q.key)) ∧
        (c.out = false → t.mem = s.mem ∧ ∀ tm, (s.core c.beam.core).teamIn c.resp = some tm → tm.gen = c.teamGen →
          (t.core c.beam.core).teamIn c.resp = some (rows.foldl Team.putRow tm)) ∧
        (c.out = true → ∀ u, u = (rows.foldl State.putRow s).mem →
          ((∀ pa va, c.word ≠ some (0, pa, va)) ∨ rows = [] → t.mem = u) ∧
          (∀ pa va, c.word = some (0, pa, va) → rows ≠ [] → s.shut pa = false →
            t.mem = Memory.writeN u pa (leBytes 4 (leNat (Memory.readN u pa 4) + rows.length)))) ∧
        (∀ a, (∀ r ∈ c.rows, ∀ ps, r.st = .ready ps → ∀ p ∈ ps, p.dev = 0 → a < p.addr ∨ p.addr + p.data.length ≤ a) →
          (∀ pa va, c.word = some (0, pa, va) → a < pa ∨ pa + 4 ≤ a) → Memory.read t.mem a = Memory.read s.mem a) ∧
        (∀ b, s.ref? c.beam = some b → c.kind ≠ .bulk → ∃ b' : Beam, t.ref? c.beam = some b' ∧
          b' = { (b.write (RegOut.all (c.rows.map (fun r => c.names.words r.key (rowStatus no r))))).full c.names with
            sleep := b'.sleep }) ∧
        (∀ b, s.ref? c.beam = some b → c.kind = .bulk → ∃ b' code pz first detail, t.ref? c.beam = some b' ∧
          b' = { (b.write (c.names.words 0 ([code + 2 ^ 8 * pz, first, detail % 2 ^ 32, detail / 2 ^ 32].map (fun w =>
            { val := BitVec.ofNat 32 w })))).full c.names with sleep := b'.sleep } ∧ pz ≤ 0xFF_FFFF ∧
          (∀ k a, c.early = some (k, a) → code = k ∧ first = 0 ∧ detail = 2 ^ 8 * (a % 2 ^ 56)) ∧
          (c.early = none → ∀ r k a, r ∈ c.rows → r.st = .failed k a →
            (∀ q ∈ c.rows, ∀ k' a', q.st = .failed k' a' → r.key ≤ q.key) → c.rows.Pairwise (fun p q => p.key < q.key) →
            code = k ∧ first = r.key ∧ detail = 2 ^ 8 * (a % 2 ^ 56)) ∧
          (c.early = none → (∀ r ∈ c.rows, ∀ k a, r.st ≠ .failed k a) → no = [] →
            code = 0 ∧ first = 0 ∧ detail = 0)) ∧
        (let arrives : Prop := c.resp = none ∧ ∃ tm, (s.core c.beam.core).team = some tm ∧ tm.gen = c.teamGen ∧ tm.vd = c.vd
        let late : Nat := if (s.ref? c.beam).isNone then 1 else 0
        let value (j : Nat) : Word := (s.core c.beam.core).counters.getD j 0
        let dropping (n : Nat) : Prop := ∀ d, s.vds.look c.vd = some d → ∃ d' : VDev, t.vds.look c.vd = some d' ∧ d'.dropped = d.dropped + n
        (c.out = true ∨ c.counter = none → (t.core c.beam.core).counters = (s.core c.beam.core).counters ∧ dropping late) ∧
        (∀ k, c.out = false → c.counter = some k →
          (¬arrives → (t.core c.beam.core).counters = (s.core c.beam.core).counters ∧ dropping (rows.length + late)) ∧
          (arrives → dropping late ∧ (∀ j, (t.core c.beam.core).counters.getD j 0 = value j + if j = k then BitVec.ofNat 32 rows.length else 0) ∧
            ∀ slot b goal, rows ≠ [] → s.beam? c.beam.core slot = some b → b.sleep = .wait k goal →
              waitMet (value k + BitVec.ofNat 32 rows.length) goal = true → ∃ b', t.beam? c.beam.core slot = some b' ∧ b'.sleep = .ready))))) ∧
  (∀ (tm : Team) (r : Row) (ps : List Piece), r.st = .ready ps →
    let bs := ps.flatMap (·.data)
    (∀ i < bs.length, Memory.read (tm.putRow r).spad (r.off + i) = bs.getD i 0) ∧
    (∀ a, a < r.off ∨ r.off + bs.length ≤ a → Memory.read (tm.putRow r).spad a = Memory.read tm.spad a)) ∧
  (∀ (s : State) (r : Row) (ps : List Piece) (p : Piece), r.st = .ready ps → p ∈ ps → p.dev = 0 → s.shut p.addr = false →
    (∀ q ∈ ps, q.dev = 0 → q = p ∨ q.addr + q.data.length ≤ p.addr ∨ p.addr + p.data.length ≤ q.addr) →
    ∀ i < p.data.length, Memory.read (s.putRow r).mem (p.addr + i) = p.data.getD i 0) ∧
  (∀ (s : State) (id : Nat) (w : Walk), s.walks.find? (fun o => o.id == id) = some w →
    (s.walkRuns w = false → exec (.pageWalkComplete id) s = .next s) ∧
    (s.walkRuns w = true → (∀ a, s.shut a = false) → s.copies.Pairwise (fun c e => c.id ≠ e.id) →
      ∃ t more, exec (.pageWalkComplete id) s = .next t ∧ t.walks = s.walks.filter (fun o => o.id != id) ++ more ∧
        (∀ q ∈ more, s.nextId ≤ q.id) ∧ t.mem = s.mem ∧ t.copies.map (·.id) = s.copies.map (·.id) ∧
        (s.walk w.vd w.va = none →
          (∀ c ∈ s.copies, c.vd = w.vd → dieOf c.beam.core = w.die → ∃ e ∈ t.copies, e = { c with
            rows := c.rows.map (fun r => match r.st with
              | .walking a _ _ => if a / 2 ^ w.log = w.page then { r with st := .failed 1 a } else r
              | _ => r) }) ∧
          (∀ r va b, (r, va) ∈ w.beams → s.ref? r = some b → ∃ b' : Beam, t.ref? r = some b' ∧
            ({ b with missed := b'.missed } : Beam).onlyWaits b' ∧ va / 2 ^ 16 ∈ b'.missed)) ∧
        (∀ l ∈ s.ovls, ∀ va, l.wait = some va → l.vd = w.vd → dieOf l.core = w.die → va / 2 ^ w.log = w.page →
          ∃ l' ∈ t.ovls, l'.id = l.id ∧ l'.wait = none ∧ (s.walk w.vd w.va = none → va / 2 ^ 16 ∈ l'.missed) ∧
            (∀ log leaf, s.walk w.vd w.va = some (log, leaf) → ∃ tr ∈ l'.trans, tr.vd = w.vd ∧ tr.log = log ∧
              tr.leaf = BitVec.ofNat 64 leaf)) ∧
        (∀ leaf, s.walk w.vd w.va = some (w.log, leaf) → w.page = w.va / 2 ^ w.log →
          SameBeams s t ∧
          ∀ c ∈ t.copies, c.vd = w.vd → dieOf c.beam.core = w.die →
            ∀ r ∈ c.rows, ∀ va ps bad, r.st = .walking va ps bad → va / 2 ^ w.log ≠ w.page)))

/-! ### Synchronisation and control (groups 0x7 and 0x9) -/

/-- A fence that no thread executes completes. An acquire fence holds while a marked read of its path has to fill its
destination, and otherwise completes; a full fence (ORDER 00 or 11) holds for those and for every earlier access of
its path not yet performed, and while a copy or ovl before it has its source to read, and otherwise completes; it does
not wait for a copy's writes or status. A release fence completes at once: for each thread of its path exactly the
earlier accesses of the path, and those that earlier release fences named and that are still in flight, come before
its later marked writes. A release or full fence of narrow scope makes the later writes of its path's threads narrow
releases. wait completes where the counter minus the target, modulo 2^32, is below 2^31, and otherwise puts the beam
to sleep. arrive holds behind an acquire in flight or a copy or ovl with reads due; otherwise it puts an arrival of
amount C or 1 in flight to the counter of its core or of a position of its hardware cluster, with the tag of the team
there, behind every access before it, or is dropped and counted. An arrival that reaches its counter raises it and
wakes exactly the beams whose wait it satisfies, is added to the image of a saved team, or is dropped and counted.
sleep sleeps for a count other than 0, and its expiry wakes the beam. The model's choices: fences and arrivals hold at
issue (log entries 34 and 109), and an acquire fence waits for no red (185); an acquire leaves no line that its core
had as it was before (log entry 124). (09_ordering_qa.md, 10_memory_isa.md, R190, R191, R195, R199, R203, R228, R229,
R230, R231, R232) -/
def Obligations.FencesWaitsArrivalsSleep : Prop :=
  (∀ (h : Head) (m : ModF) (s : State) (x : Iss), s.passes (.fence h m) = some x →
    (x.lanes = [] → exec (.fence h m) s = .next (s.apply x (.sent s))) ∧
    (x.lanes ≠ [] →
      let early (id : Nat) : Prop := ∃ g, Early s x g ∧ g.id = id
      let kept (id : Nat) : Prop := ∃ t, x.onPath t ∧ id ∈ x.f.b.fenced.getD t [] ∧ s.pending id = true
      let marks (b : Beam) : Prop := b = { x.f.b with fenced := b.fenced, narrow := b.narrow } ∧
        (∀ t, ¬x.onPath t → b.fenced.getD t [] = x.f.b.fenced.getD t []) ∧
        (m.ord = .rel → ∀ t, x.onPath t → ∀ id, id ∈ b.fenced.getD t [] ↔ early id ∨ kept id) ∧
        (m.ord ≠ .rel → b.fenced = x.f.b.fenced) ∧
        (∀ t, t ∈ b.narrow ↔ t ∈ x.f.b.narrow ∨ (x.onPath t ∧ (m.scope = .team ∨ m.scope = .cluster)))
      (m.ord = .acq →
        (¬ReadsDue s x → exec (.fence h m) s = .next (s.apply x (.sent (s.seeNow x.f.core)))) ∧
        (ReadsDue s x → exec (.fence h m) s = .next s)) ∧
      (m.ord = .rel → ∃ f, marks (f x.f.b) ∧ exec (.fence h m) s = .next (s.apply x (.sent (s.updBeam x.f.core x.f.slot f)))) ∧
      (m.ord = .ar ∨ m.ord = .rlx →
        ((∀ id, ¬early id) → ¬ReadsDue s x → s.readsBefore x x.pathThreads = false → ∃ f, marks (f x.f.b) ∧
          exec (.fence h m) s = .next (s.apply x (.sent ((s.updBeam x.f.core x.f.slot f).seeNow x.f.core)))) ∧
        ((∃ id, early id) ∨ ReadsDue s x ∨ s.readsBefore x x.pathThreads = true → exec (.fence h m) s = .next s)))) ∧
  (∀ (h : Head) (s : State) (x : Iss), s.passes (.wait h) = some x →
    let k := x.val x.h.a .n32 0 % 64
    let target : Word := BitVec.ofNat 32 (x.val x.h.b .n32 0)
    let met : Prop := ((s.core x.f.core).counters.getD k 0 - target).toNat < 2 ^ 31
    (x.lanes = [] → exec (.wait h) s = .next (s.apply x (.sent s))) ∧
    (x.lanes ≠ [] → met → exec (.wait h) s = .next (s.apply x (.sent (s.seeNow x.f.core)))) ∧
    (x.lanes ≠ [] → ¬met → exec (.wait h) s = .next (s.apply x (.sleep (.wait k target) s)))) ∧
  (∀ (h : Head) (s : State) (x : Iss), s.passes (.arrive h) = some x →
    let core := if x.h.b = .none then x.f.core else x.f.core / 16 * 16 + x.val x.h.b .n32 0 % 16
    let held : Prop := s.acquiring x x.pathThreads = true ∨ s.readsBefore x x.pathThreads = true
    (x.lanes = [] → exec (.arrive h) s = .next (s.apply x (.sent s))) ∧
    (x.lanes ≠ [] → held → exec (.arrive h) s = .next s) ∧
    (x.lanes ≠ [] → ¬held → ∀ t, (s.core core).team = some t → t.vd = x.f.t.vd → ∃ u a, exec (.arrive h) s = .next (s.apply x (.sent u)) ∧
      u = { s with arrivals := s.arrivals ++ [a], nextId := s.nextId + 1 } ∧ a.vd = t.vd ∧ a.core = core ∧
      a.counter = x.val x.h.a .n32 0 % 64 ∧ a.tag = t.gen ∧ a.launch = t.launch ∧ a.team = t.index ∧
      a.amount = (if x.h.c = .none then 1 else BitVec.ofNat 32 (x.val x.h.c .n32 0)) ∧
      (∀ g, Early s x g → g.id ∈ a.after) ∧ (∀ t, x.onPath t → ∀ id ∈ x.f.b.fenced.getD t [], id ∈ a.after)) ∧
    (x.lanes ≠ [] → ¬held → (∀ t, (s.core core).team = some t → t.vd ≠ x.f.t.vd) →
      exec (.arrive h) s = .next (s.apply x (.sent (s.countDrop x.f.t.vd))))) ∧
  (∀ (s : State) (id : Nat) (a : Arrival), s.arrivals.find? (fun o => o.id == id) = some a →
    ((∃ k ∈ a.after, s.pending k = true) → exec (.arrivalCounterIncrement id) s = .next s) ∧
    ((∀ k ∈ a.after, s.pending k = false) →
    ∃ t, exec (.arrivalCounterIncrement id) s = .next t ∧ t.arrivals = s.arrivals.filter (fun o => o.id != id) ∧ t.mem = s.mem ∧
      (∀ l v, s.launch? a.vd a.launch = some l → l.teams.look a.team = some (.saved v) → v.team.gen = a.tag →
        ∃ l' : Launch, t.launch? a.vd a.launch = some l' ∧ l'.teams.look a.team =
          some (.saved { v with counters := v.counters.put a.counter (v.counters.getD a.counter 0 + a.amount) })) ∧
      ((∀ l v, s.launch? a.vd a.launch = some l → l.teams.look a.team = some (.saved v) → v.team.gen ≠ a.tag) →
        (∀ tm, (s.core a.core).team = some tm → tm.gen = a.tag → tm.vd = a.vd →
          let n := (s.core a.core).counters.getD a.counter 0 + a.amount
          (t.core a.core).counters.getD a.counter 0 = n ∧
          (∀ k, k ≠ a.counter → (t.core a.core).counters.getD k 0 = (s.core a.core).counters.getD k 0) ∧
          ∀ slot b, s.beam? a.core slot = some b → ∃ b' : Beam, t.beam? a.core slot = some b' ∧ b' = { b with sleep := b'.sleep } ∧
            (∀ w, b.sleep = .wait a.counter w → (b'.sleep = if (n - w).toNat < 2 ^ 31 then .ready else b.sleep)) ∧
            ((∀ w, b.sleep ≠ .wait a.counter w) → b' = b)) ∧
        ((∀ tm, (s.core a.core).team = some tm → ¬(tm.gen = a.tag ∧ tm.vd = a.vd)) →
          t.cores = s.cores ∧ ∀ d, s.vds.look a.vd = some d → t.vds.look a.vd = some { d with dropped := d.dropped + 1 })))) ∧
  (∀ (h : Head) (s : State) (x : Iss), s.passes (.sleep h) = some x →
    (x.lanes = [] ∨ x.val x.h.a .n32 0 % 2 ^ 32 = 0 → exec (.sleep h) s = .next (s.apply x (.sent s))) ∧
    (x.lanes ≠ [] → x.val x.h.a .n32 0 % 2 ^ 32 ≠ 0 → exec (.sleep h) s = .next (s.apply x (.sleep .sleeping s)))) ∧
  (∀ (s : State) (core slot : Nat) (b : Beam), s.beam? core slot = some b → b.sleep = .sleeping →
    exec (.sleepExpiry core slot) s = .next (s.setBeam core slot { b with sleep := .ready }))

/-- bar, cbar and trigger with no executing thread complete. Where no earlier access of the path and no read of a copy or
ovl of it is outstanding: a beam's arrival at a team barrier, with every other beam of the team ended or arrived and
no write of an ended beam of the team's launch on the core still to be performed nor copy or ovl of one with reads
due, makes the generation one higher with no arrivals, wakes every beam of the team that slept at it, and the beam
goes on; otherwise it is added to the arrivals, and nothing else changes, and the beam sleeps. The same holds of a
cluster barrier over the resident teams of the cluster. While an access of the path is in flight nothing happens.
trigger marks its beam, adds it to the triggered beams of its launch, and where every team of a running launch, to
which its bin brings no more teams, has triggered or ended, the launch's trigger event occurs; a second trigger has no
effect. The model's choice: a release holds at issue until the path's earlier accesses have been performed (log
entries 34 and 109). (11_execution.md, 12_control_isa.md, R202, R247, R275, R277) -/
def Obligations.BarriersAndTriggers : Prop :=
  (∀ (h : Head), ∀ i ∈ [Instr.bar h, .cbar h, .trigger h], ∀ (s : State) (x : Iss), s.passes i = some x →
    (x.lanes = [] → exec i s = .next (s.apply x (.sent s))) ∧
    (x.lanes ≠ [] → x.f.b.triggered = false → s.releaseHold x = true → exec i s = .next s)) ∧
  (∀ (h : Head) (s : State) (x : Iss), s.passes (.bar h) = some x → x.lanes ≠ [] → s.releaseHold x = false →
    let b := x.val x.h.a .n32 0 % 16
    let old := x.f.t.bars.getD b {}
    let due : Prop := ∃ g ∈ s.gops, g.beam.core = x.f.core ∧ g.vd = x.f.t.vd ∧ g.launch = x.f.t.launch ∧ g.kind ≠ .load ∧
      g.settled = false ∧ s.ref? g.beam = none
    let reads : Prop := (∃ c ∈ s.copies, c.beam.core = x.f.core ∧ c.vd = x.f.t.vd ∧ c.launch = x.f.t.launch ∧ s.ref? c.beam = none ∧
      ∃ r ∈ c.rows, ∃ va ps bad, r.st = .walking va ps bad) ∨
      ∃ l ∈ s.ovls, l.core = x.f.core ∧ l.vd = x.f.t.vd ∧ l.launch = some x.f.t.launch ∧ ∃ r, l.beam = some r ∧ s.ref? r = none
    let full : Prop := (∀ i < x.f.t.beams, i ∈ x.f.t.ended ∨ i ∈ old.arrived ∨ i = x.f.b.idx) ∧ (x.f.t.ended = [] ∨ ¬(due ∨ reads))
    (full → ∃ u t, exec (.bar h) s = .next (s.apply x (.sent u)) ∧ (u.core x.f.core).teamIn x.f.b.resp = some t ∧
      t = { x.f.t with bars := t.bars } ∧ t.bars.getD b {} = { gen := old.gen + 1, arrived := [] } ∧
      (∀ k, k ≠ b → t.bars.getD k {} = x.f.t.bars.getD k {}) ∧ u.mem = s.mem ∧ SameBeams s u ∧
      ∀ slot c, s.beam? x.f.core slot = some c → c.resp = x.f.b.resp → c.sleep = .bar b →
        ∃ c', u.beam? x.f.core slot = some c' ∧ c'.sleep = .ready) ∧
    (¬full → ∃ u t, exec (.bar h) s = .next (s.apply x (.sleep (.bar b) u)) ∧
      u = s.updTeam x.f.core x.f.b.resp (fun _ => t) ∧
      t = { x.f.t with bars := t.bars } ∧ (t.bars.getD b {}).gen = old.gen ∧
      (∀ i, i ∈ (t.bars.getD b {}).arrived ↔ i ∈ old.arrived ∨ i = x.f.b.idx) ∧
      (∀ k, k ≠ b → t.bars.getD k {} = x.f.t.bars.getD k {}))) ∧
  (∀ (h : Head) (s : State) (x : Iss), s.passes (.cbar h) = some x → x.lanes ≠ [] → s.releaseHold x = false →
    let b := x.val x.h.a .n32 0 % 4
    let slot := x.f.b.resp
    let cores := s.clusterCores x.f.core slot
    let full : Prop := (∀ n ∈ cores, ∀ t, (s.core n).teamIn slot = some t → ∀ i < t.beams,
      i ∈ t.ended ∨ i ∈ (t.cbars.getD b {}).arrived ∨ (n = x.f.core ∧ i = x.f.b.idx)) ∧ s.clusterLeftovers x.f.core slot = false
    (full → s.cores.Pairwise (fun c e => c.1 < e.1) → ∃ u : State, exec (.cbar h) s = .next (s.apply x (.sent u)) ∧ u.mem = s.mem ∧ SameBeams s u ∧
      (∀ n ∈ cores, ∀ t, (s.core n).teamIn slot = some t → ∃ t', (u.core n).teamIn slot = some t' ∧ t' = { t with cbars := t'.cbars } ∧
        t'.cbars.getD b {} = { gen := (t.cbars.getD b {}).gen + 1, arrived := [] } ∧
        (∀ k, k ≠ b → t'.cbars.getD k {} = t.cbars.getD k {}) ∧
        ∀ k c, s.beam? n k = some c → c.resp = slot → c.sleep = .cbar b → ∃ c', u.beam? n k = some c' ∧ c'.sleep = .ready)) ∧
    (¬full → ∃ u t, exec (.cbar h) s = .next (s.apply x (.sleep (.cbar b) u)) ∧
      u = s.updTeam x.f.core slot (fun _ => t) ∧ t = { x.f.t with cbars := t.cbars } ∧
      (t.cbars.getD b {}).gen = (x.f.t.cbars.getD b {}).gen ∧
      (∀ i, i ∈ (t.cbars.getD b {}).arrived ↔ i ∈ (x.f.t.cbars.getD b {}).arrived ∨ i = x.f.b.idx) ∧
      (∀ k, k ≠ b → t.cbars.getD k {} = x.f.t.cbars.getD k {}))) ∧
  (∀ (h : Head) (s : State) (x : Iss), s.passes (.trigger h) = some x → x.f.b.triggered = true → exec (.trigger h) s = .next (s.apply x (.sent s))) ∧
  (∀ (h : Head) (s : State) (x : Iss), s.passes (.trigger h) = some x → x.lanes ≠ [] → x.f.b.triggered = false → s.releaseHold x = false →
    ∃ u : State, exec (.trigger h) s = .next (s.apply x (.sent u)) ∧ u.mem = s.mem ∧
      u.beam? x.f.core x.f.slot = some { x.f.b with triggered := true } ∧
      (x.f.b.resp = none → ∀ l, s.launch? x.f.t.vd x.f.t.launch = some l → ∃ l' : Launch, u.launch? x.f.t.vd x.f.t.launch = some l' ∧
        l' = { l with trig := l'.trig, trigged := l'.trigged } ∧
        (∀ k, k ∈ l'.trig ↔ k ∈ l.trig ∨ k = 32 * x.f.t.index + x.f.b.idx) ∧ (l.trigged = true → l'.trigged = true) ∧
        (l.st = .running → (∀ d, s.vds.look x.f.t.vd = some d → d.binBusy l = false) →
          (l'.trigged = true ↔ l.trigged = true ∨ ∀ i < l.count, u.teamTriggered l' i = true))) ∧
      (x.f.b.resp ≠ none → u.vds = s.vds))

/-- Where a spawn of an ordinary beam names a successor with a bin, every executing lane's record is 16-byte aligned and
within the allocation, and nothing holds it: with records R in lane order, room a in the buffer (2 * fill less its
records) and b in the spill area, the buffer gains the first a records and the spill area the next b. spawn completes
where all are written, and otherwise parks with those left; spawn.try completes, and its predicate is true for exactly
the lanes whose records were written. A retry writes the records left in the same way, and the beam wakes when none is
left. Where a lane's record is misaligned or lies beyond the allocation, spawn takes the scratchpad-access fault of
the lowest such lane; otherwise, with no such bin, or for a responder, the spawn-target fault. No record is then
written. The model's choices: with no such bin a record counts as one of 0 bytes, so that alignment is looked at
before the successor (log entry 30), and the hold for earlier accesses (log entry 34). (11_execution.md,
12_control_isa.md, R248, R250, R278, R317) -/
def Obligations.SpawnsWriteRecords : Prop :=
  let filled (n n' : Node) (rs : List SpawnRec) : Prop :=
    let a := 2 * n.fill - n.bin.length
    let b := n.spill - n.excess.length
    n' = { n with bin := n.bin ++ rs.take a, excess := n.excess ++ (rs.drop a).take b, timing := n'.timing } ∧
      (n.timing = true → n'.timing = true) ∧ (0 < a + b → rs ≠ [] → n.timer ≠ 0 → n'.timing = true)
  let room (n : Node) : Nat := (2 * n.fill - n.bin.length) + (n.spill - n.excess.length)
  (∀ (h : Head), ∀ i ∈ [Instr.spawn h, .spawnTry h], ∀ (s : State) (x : Iss), s.passes i = some x → x.lanes ≠ [] →
    let k := x.val x.h.b .n32 0 % 16
    let target := if x.f.b.resp = none then s.spawnTo x.f.t k else none
    let ok (l : Nat) : Prop := x.spadAt l % 16 = 0 ∧ x.spadAt l + target.elim 0 (fun e => e.2.2.rsize) ≤ x.f.t.decl.spad
    (∀ l ∈ x.lanes, ¬ok l → (∀ j ∈ x.lanes, j < l → ok j) →
      exec i s = .next (s.apply x (.trap
        { cause := 0x06, lane := l, addr := BitVec.ofNat 64 (if x.spadAt l % 16 ≠ 0 then x.spadAt l else max (x.spadAt l) x.f.t.decl.spad) }))) ∧
    ((∀ l ∈ x.lanes, ok l) → target = none → exec i s = .next (s.apply x (.trap { cause := 0x0C, addr := BitVec.ofNat 64 k }))) ∧
    ((∀ l ∈ x.lanes, ok l) → target ≠ none → s.releaseHold x = true → exec i s = .next s)) ∧
  (∀ (h : Head) (s : State) (x : Iss) g m nd, s.spawnTo x.f.t (x.val x.h.b .n32 0 % 16) = some (g, m, nd) → x.f.b.resp = none → x.lanes ≠ [] →
    (∀ l ∈ x.lanes, x.spadAt l % 16 = 0 ∧ x.spadAt l + nd.rsize ≤ x.f.t.decl.spad) → s.releaseHold x = false →
    let rs := x.lanes.map (fun l => x.f.t.record l (x.spadAt l) nd.rsize)
    (s.passes (.spawn h) = some x → ∃ (u : State) (nd' : Node), u.node? x.f.t.vd g m = some nd' ∧ filled nd nd' rs ∧ u.mem = s.mem ∧
      exec (.spawn h) s = .next (s.apply x
        (if rs.length ≤ room nd then .sent u else .sleep (.spawning m (rs.drop (room nd))) u))) ∧
    (s.passes (.spawnTry h) = some x → ∃ (u : State) (nd' : Node), u.node? x.f.t.vd g m = some nd' ∧ filled nd nd' rs ∧ u.mem = s.mem ∧
      exec (.spawnTry h) s = .next (s.apply x
        (.write (x.each (fun l => x.outPred l (decide (l ∈ x.lanes.take (room nd))) false)) u)))) ∧
  (∀ (s : State) (core slot m : Nat) (b : Beam) (left : List SpawnRec) (t : Team) (l : Launch) (g n : Nat) (nd : Node),
    s.beam? core slot = some b → b.sleep = .spawning m left → s.teamOf core b = some t → s.launch? t.vd t.launch = some l →
    l.node = some (g, n) → s.node? t.vd g m = some nd →
    ∃ (u : State) (nd' : Node), exec (.spawnRetry core slot) s = .next u ∧ u.node? t.vd g m = some nd' ∧ filled nd nd' left ∧
      u.beam? core slot = some { b with
        sleep := if left.length ≤ room nd then .ready else .spawning m (left.drop (room nd)) })

/-- Where a brk passes the checks at issue and some thread executes it, the beam takes the trap of cause 0x0F with %tpc at
the brk, %taddr its number n zero-extended, or 0 where A is none, DONE set, and its selector left to rte. Where no
thread executes it, it has no effect but its selector's. (R263) -/
def Obligations.BreakpointTraps : Prop :=
  ∀ (h : Head) (s : State) (x : Iss), s.passes (.brk h) = some x →
    (x.lanes = [] → exec (.brk h) s = .next (s.apply x (.sent s))) ∧
    (x.lanes ≠ [] →
      let t : Trap := { cause := 0x0F, addr := if x.h.a = .imm then x.h.imm.setWidth 64 else 0, done := true }
      exec (.brk h) s = .next (s.apply x (.after t s)) ∧
      ∀ d, x.f.b.handler = none → s.vds.look x.f.t.vd = some d → d.overlays.look 255 ≠ none →
        ∃ b, (s.apply x (.after t s)).beam? x.f.core x.f.slot = some b ∧ b.tpc = x.pc ∧ b.taddr = t.addr ∧ b.tcause = t.word ∧
          b.handler.map (fun k => (k.cause, k.frozen, k.nas)) = some (BitVec.ofNat 8 t.cause, x.f.b.flow, some { head := x.h, gm := x.gm, targets := x.targets }))

/-- nop and lpad complete with no effect but the selector's. joinat with a target index in 0 to 5,460 and a free stack
entry pushes, at the lowest free number, an entry with the path's threads, the target's address in the overlay, FMT,
PART and the old top entry, which becomes the running path's top; otherwise the control-flow fault 0x11 or 0x17. ovl
holds while its slot loads or an access that comes before it in its thread's order is in flight, or a copy before it
has reads due; it answers CODE 0 where its slot holds or loads the overlay, 3 with SLOT where another does, 2 where
the overlay is not loaded for the virtual device, and otherwise empties D and starts a load that marks the slot and
keeps the overlay as it stands. A load that ends leaves the loads in flight. Its image is read line by line by the
translations at hand: where every line translates here, readable and without poison, the bytes are those of memory;
the first line without a right, or whose walk has faulted, ends the read with code 1, a poisoned one with code 4; a
line whose page has to be walked makes the load wait for the walk, and one behind a CXL port that is out makes it wait
for the port. Where the image is read whole the slot holds the overlay, its words and its image address; otherwise it
is empty. D of the ovl is full with the code, or the status is dropped and counted. The entry overlay of a team placed
waiting for it is loaded into slot 0 unless it is resident, once slot 0 loads nothing; where another slot loads it,
slot 0 is left empty and the load counts as failed. The load's end lets that team issue, and the launch notes whether
it failed. It is due where no team of the launch has issued on the core, or a load has failed or is in flight. The
model's choices: a team waits for its entry overlay (log entry 31); ovl holds at issue (log entries 34 and 109); a
load waits for the walk of its page (log entry 38) and for a port that is out (log entry 134). (12_control_isa.md,
R255, R256, R257, R259, R260, R261, R262) -/
def Obligations.ControlWordsAndOverlays : Prop :=
  (∀ h : Head, ∀ i ∈ [Instr.nop h, .lpad h], Does i (fun _ _ => True) (fun _ s => .sent s)) ∧
  (∀ (h : Head) (s : State) (x : Iss), s.passes (.joinat h) = some x →
    let to_ : Int := (idxOf x.pc : Int) + x.h.imm.toInt
    let st := x.f.b.flow.stack
    (x.lanes = [] → exec (.joinat h) s = .next (s.apply x (.sent s))) ∧
    (x.lanes ≠ [] →
      (to_ < 0 ∨ 5460 < to_ → exec (.joinat h) s = .next (s.apply x (.trap { cause := 0x02, reason := 0x11 }))) ∧
      (0 ≤ to_ → to_ ≤ 5460 → (∀ e < x.f.b.flow.room, (st.look e).isSome) →
        exec (.joinat h) s = .next (s.apply x (.trap { cause := 0x02, reason := 0x17 }))) ∧
      (0 ≤ to_ → to_ ≤ 5460 → ∀ e < x.f.b.flow.room, st.look e = none → (∀ k < e, (st.look k).isSome) →
        exec (.joinat h) s = .next (s.apply x (.sent (s.updBeam x.f.core x.f.slot (fun b => { b with
          flow := { x.f.b.flow with
            stack := st.put e { call := false, mask := x.f.p.mask, addr := codeAddr (ovlOf x.pc) to_.toNat, fmt := x.f.p.fmt
                                part := x.f.p.part, parent := x.f.p.top }
            paths := x.f.b.flow.paths.map (fun p => if p.st = .running then { p with top := some e } else p) } }))))))) ∧
  (∀ (h : Head) (s : State) (x : Iss) (d : VDev), s.passes (.ovl h) = some x → s.vds.look x.f.t.vd = some d →
    let id := x.val x.h.a .n32 0 % 256
    let slot := x.val x.h.b .n32 0 % 4
    let c := s.core x.f.core
    let has (k : Nat) : Prop := k < 4 ∧ ∃ v, c.slots.look k = some v ∧ (v.overlay = some id ∨ v.loading = some id)
    let answer (code k : Nat) : Out := .next (s.apply x (.send (x.outWords 0 [{ val := BitVec.ofNat 32 (code + 256 * k) }]) s))
    let mine (t : Nat) : Prop := if x.h.uni then t = 32 else t ∈ x.lanes
    let due : Prop := ∃ g ∈ s.gops, g.beam = x.ref ∧ g.settled = false ∧
      ((∃ a ∈ g.lanes, mine a.lane) ∨ ∃ t, mine t ∧ g.id ∈ x.f.b.joined.getD t [])
    let busy : Prop := due ∨ s.copiesDue x x.threads ≠ [] ∨ ∃ v, c.slots.look slot = some v ∧ v.loading ≠ none
    (x.lanes = [] → exec (.ovl h) s = .next (s.apply x (.sent s))) ∧
    (x.lanes ≠ [] →
      (busy → exec (.ovl h) s = .next s) ∧
      (¬busy → has slot → (∀ k, has k → k = slot) → exec (.ovl h) s = answer 0 0) ∧
      (¬busy → ∀ k, k ≠ slot → has k → (∀ j, has j → j = k) → exec (.ovl h) s = answer 3 k) ∧
      (¬busy → (∀ k, ¬has k) → d.overlays.look id = none → exec (.ovl h) s = answer 2 0) ∧
      (¬busy → (∀ k, ¬has k) → d.overlays.look id ≠ none → ∃ u l, exec (.ovl h) s = .next (s.apply x (.sent u)) ∧
        u.ovls = s.ovls ++ [l] ∧ l.img = d.overlays.look id ∧ l.core = x.f.core ∧ l.slot = slot ∧ l.vd = x.f.t.vd ∧ l.ovl = id ∧ l.beam = some x.ref ∧
        l.names = x.written ∧ u.mem = s.mem ∧ u.beam? x.f.core x.f.slot = some (x.f.b.empty x.written) ∧
        ((u.core x.f.core).slots.look slot) = some { loading := some id }))) ∧
  (∀ (s : State) (id : Nat) (l : OvlLoad), s.ovls.find? (fun o => o.id == id) = some l →
    ((∃ k, s.ovls.find? (fun o => o.core == l.core) = some k ∧ k.id ≠ id) ∨ l.wait ≠ none → exec (.ovlLoadComplete id) s = .next s) ∧
    ((∀ k, s.ovls.find? (fun o => o.core == l.core) = some k → k.id = id) → l.wait = none → l.fetch = false →
      let ends (v : State) (slot : Slot) (code : Nat) : Prop :=
        ∃ u, exec (.ovlLoadComplete id) s = .next u ∧ u.ovls = s.ovls.filter (fun o => o.id != id) ∧ u.mem = v.mem ∧
        (u.core l.core).slots.look l.slot = some slot ∧
        (∀ tm, (s.core l.core).team = some tm →
          ∃ tm', (u.core l.core).team = some tm' ∧ tm' = { tm with
            entry := if l.team = some tm.gen then false else tm.entry, bars := tm'.bars, cbars := tm'.cbars } ∧
          ((∀ r, l.beam = some r → s.ref? r ≠ none) → tm'.bars = tm.bars ∧ tm'.cbars = tm.cbars)) ∧
        (∀ r b, l.beam = some r → s.ref? r = some b →
          u.ref? r = some ((b.write (l.names.words 0 (clean [BitVec.ofNat 32 code]))).full l.names)) ∧
        (∀ r d, l.beam = some r → s.ref? r = none → s.vds.look l.vd = some d →
          ∃ d', u.vds.look l.vd = some d' ∧ d'.dropped = d.dropped + 1)
      (l.img = none → ends s {} 2) ∧
      ∀ o v, l.img = some o →
        (∀ bs, s.readImage l o.image (12 * o.count) = (.bytes bs, v) → ends v
          { overlay := some l.ovl, image := o.image, words := (List.range o.count).map (fun i => wordOfBytes (bs.drop (12 * i)))
            digest := o.digest } 0) ∧
        (∀ e, s.readImage l o.image (12 * o.count) = (.fail e, v) → ends v {} e) ∧
        (∀ va, s.readImage l o.image (12 * o.count) = (.walk va, v) → ∃ t, exec (.ovlLoadComplete id) s = .next t ∧ t.mem = v.mem ∧
          (∃ k ∈ t.ovls, k.id = id ∧ k.wait = some va) ∧
          ∃ w ∈ t.walks, w.vd = l.vd ∧ w.die = dieOf l.core ∧ w.page = va / 2 ^ w.log) ∧
        (s.readImage l o.image (12 * o.count) = (.held, v) → exec (.ovlLoadComplete id) s = .next s))) ∧
  (∀ (s : State) (l : OvlLoad) (va n : Nat) (pa : Nat → Nat),
    let known (a : Nat) : Option Trans := (cached l.trans l.vd a).or (cached (s.core l.core).tlb l.vd a)
    let good (p : Nat × Nat) : Prop := p.1 < 2 ^ 56 ∧ ∃ t, known p.1 = some t ∧ s.place l.vd t p.1 p.2 { r := true } = .here (pa p.1) ∧
      s.portOut (pa p.1) = false ∧ s.shut (pa p.1) = false ∧ s.linePoisoned (pa p.1) p.2 = false
    ((∀ p ∈ lineParts va n, good p) →
      s.readImage l va n = (.bytes ((lineParts va n).flatMap (fun p => Memory.readN s.mem (pa p.1) p.2)), s)) ∧
    (∀ ps p rest, lineParts va n = ps ++ p :: rest → (∀ q ∈ ps, good q) → p.1 < 2 ^ 56 →
      (known p.1 = none → cached (s.dtu.getD (dieOf l.core) []) l.vd p.1 = none →
        (s.readImage l va n).1 = if p.1 / 2 ^ 16 ∈ l.missed then .fail 1 else .walk p.1) ∧
      ∀ t, known p.1 = some t →
        (∀ k, s.place l.vd t p.1 p.2 { r := true } = .fail k → (s.readImage l va n).1 = .fail 1) ∧
        (∀ a, s.place l.vd t p.1 p.2 { r := true } = .here a → s.portOut a = true → (s.readImage l va n).1 = .held) ∧
        (∀ a, s.place l.vd t p.1 p.2 { r := true } = .here a → s.portOut a = false → s.shut a = false → s.linePoisoned a p.2 = true →
          (s.readImage l va n).1 = .fail 4))) ∧
  (∀ (s : State) (core : Nat) (t : Team) (l : Launch) (d : VDev) (k : Kernel), (s.core core).team = some t → t.entry = true →
    s.launch? t.vd t.launch = some l → s.vds.look t.vd = some d → d.kernels.look l.handle = some k →
    let id := ovlOf k.entry
    ((s.core core).slotOf id ≠ none → exec (.entryOverlayLoad core) s =
      .next ((s.enter t.vd t.launch core false).updTeam core none (fun t => { t with entry := false }))) ∧
    ((s.core core).slotOf id = none → (s.core core).slotLoading 0 = true → exec (.entryOverlayLoad core) s = .next s) ∧
    ((s.core core).slotOf id = none → (s.core core).slotLoading 0 = false → (s.core core).loadingIn id ≠ none → exec (.entryOverlayLoad core) s =
      .next (((s.updCore core (fun c => { c with slots := c.slots.put 0 {} })).enter t.vd t.launch core true).updTeam core none
        (fun t => { t with entry := false }))) ∧
    ((s.core core).slotOf id = none → (s.core core).loadingIn id = none → (s.core core).slotLoading 0 = false →
      exec (.entryOverlayLoad core) s = .next (s.startLoad core 0 t.vd id none {} false (some t.gen) (some t.launch)))) ∧
  (∀ (s : State) (v n core : Nat) (failed : Bool) (l : Launch), s.launch? v n = some l →
    ∃ l' : Launch, (s.enter v n core failed).launch? v n = some l' ∧ l' = { l with retry := l'.retry } ∧ (core ∈ l'.retry ↔ failed = true) ∧
      ∀ k, k ≠ core → (k ∈ l'.retry ↔ k ∈ l.retry)) ∧
  (∀ (s : State) (x : Iss) (marked : Bool) (l : Launch), x.f.b.resp = none → s.launch? x.f.t.vd x.f.t.launch = some l →
    ∃ l', (s.issued x marked).launch? x.f.t.vd x.f.t.launch = some l' ∧ ∀ n, n ∈ l'.entered ↔ n ∈ l.entered ∨ n = x.f.core) ∧
  (∀ (s : State) (n core : Nat) (l : Launch) (k : Kernel), s.entryDue n core l k = true ↔ (s.core core).slotOf (ovlOf k.entry) = none ∧
    (core ∉ l.entered ∨ core ∈ l.retry ∨ ∃ o ∈ s.ovls, o.core = core ∧ o.entry = some n))

/-! ### Directories, censuses and the system (groups 0x8 and 0xA) -/

/-- dirdel completes: each thread's result is 0 where the entry at its index was valid and no lower executing thread names
the index, 2 where the entry is moving out, and 1 otherwise; exactly the valid entries that some thread names become
free with all fields zero, and nothing else changes: no other entry, beam or responder. dirput: each thread in
ascending order takes the lowest entry that is free, and its result is that index, or all ones where none is free; the
entry becomes valid with KEY from A, ADDR from B, TAG and LEN from C, and no other entry changes. dirq fills D to D+7
with the 32 bytes of R304 of the entry at its index. dirmove: for each thread in order, a status of 1 where the entry
is not valid, 3 where the destination is no core of the virtual device, 4 with the index where it is the own core, and
otherwise a move in flight and the entry moving out; D is emptied and its fill holds the statuses known at once. The
model's choices: with an access of the path in flight dirput and dirmove hold (log entries 34 and 109), and the lanes
come about in one step (194). (14_census.md, R304, R306, R314, R319, R320, R321, R322, R323) -/
def Obligations.DirectoryWords : Prop :=
  (∀ (h : Head) (s : State) (x : Iss), s.passes (.dirdel h) = some x →
    ∃ (u : State) (r : Nat → Nat), exec (.dirdel h) s = .next (s.apply x (.write (x.each (fun l => x.out .n32 l (r l) false)) u)) ∧
      u = { s with cores := u.cores } ∧ (∀ core slot, u.beam? core slot = s.beam? core slot) ∧
      (∀ l ∈ x.lanes, r l = match (s.entryAt x (x.dirIndex l)).state with
        | 1 => if ∃ j ∈ x.lanes, j < l ∧ x.dirIndex j = x.dirIndex l then 1 else 0
        | 2 => 2
        | _ => 1) ∧
      (∀ i, u.entryAt x i = if (s.entryAt x i).state = 1 ∧ ∃ l ∈ x.lanes, x.dirIndex l = i then {} else s.entryAt x i) ∧
      (∀ core i, core ≠ x.f.core → (u.core core).entry i = (s.core core).entry i)) ∧
  (∀ (h : Head), ∀ i ∈ [Instr.dirput h, .dirmove h], ∀ (s : State) (x : Iss), s.passes i = some x → x.lanes ≠ [] → (s.vds.look x.f.t.vd).isSome →
    s.releaseHold x = true → exec i s = .next s) ∧
  (∀ (h : Head) (s : State) (x : Iss), s.passes (.dirput h) = some x → x.lanes ≠ [] → s.releaseHold x = false →
    ∃ (u : State) (r : Nat → Nat), exec (.dirput h) s = .next (s.apply x (.write (x.each (fun l => x.out .n32 l (r l) false)) u)) ∧
      u.mem = s.mem ∧ (∀ core slot, u.beam? core slot = s.beam? core slot) ∧
      (∀ l ∈ x.lanes, r l < 256 →
        (s.entryAt x (r l)).state = 0 ∧
        u.entryAt x (r l) = { answered := (u.entryAt x (r l)).answered, state := 1, addr := BitVec.ofNat 56 (x.val x.h.b .n64 l)
                              len := (x.f.b.reg x.h.c l 1).val, tag := (x.f.b.reg x.h.c l 0).val
                              key := BitVec.ofNat 64 (x.val x.h.a .n64 l) } ∧
        ∀ k < r l, (s.entryAt x k).state ≠ 0 ∨ ∃ j ∈ x.lanes, j < l ∧ r j = k) ∧
      (∀ l ∈ x.lanes, ¬r l < 256 → r l = 0xFFFF_FFFF ∧ ∀ k < 256, (s.entryAt x k).state ≠ 0 ∨ ∃ j ∈ x.lanes, j < l ∧ r j = k) ∧
      (∀ l ∈ x.lanes, ∀ j ∈ x.lanes, l ≠ j → r l < 256 → r l ≠ r j) ∧
      (∀ i, (∀ l ∈ x.lanes, r l ≠ i) → u.entryAt x i = s.entryAt x i)) ∧
  (∀ h : Head, Does (.dirq h) (fun _ _ => True) (fun x s => .send (x.each (fun l =>
    let e := s.entryAt x (x.dirIndex l)
    x.outWords l (clean (wordsIn 8 (e.key.toNat + 2 ^ 64 * e.tag.toNat + 2 ^ 96 * e.len.toNat + 2 ^ 128 * e.addr.toNat + 2 ^ 184 * e.state +
      2 ^ 192 * e.answered.toNat))))) s)) ∧
  (∀ (h : Head) (s : State) (x : Iss) (d : VDev), s.passes (.dirmove h) = some x → x.lanes ≠ [] → s.releaseHold x = false → s.vds.look x.f.t.vd = some d →
    let dst (l : Nat) : Nat := x.val x.h.b .n32 l % 2 ^ 32
    let good (l : Nat) : Bool := decide (dst l ∈ s.coresOf d) && decide (dst l ≠ x.f.core)
    let before (l : Nat) : Bool := x.lanes.any (fun j => decide (j < l) && decide (x.dirIndex j = x.dirIndex l) && good j)
    let valid (l : Nat) : Bool := (s.entryAt x (x.dirIndex l)).state == 1 && !before l
    let moves (l : Nat) : Bool := valid l && good l
    ∃ (u : State) (f : Fill) (ms : List Move), exec (.dirmove h) s = .next (s.apply x (.sent u)) ∧ u.mem = s.mem ∧ u.vds = s.vds ∧
      u.beam? x.f.core x.f.slot = some (x.f.b.empty x.written) ∧
      u.fills = s.fills ++ [f] ∧ f.beam = x.ref ∧ f.names = x.written ∧ f.prism = none ∧ f.gop = none ∧
      f.out = RegOut.all ((x.lanes.filter (fun l => !moves l)).map (fun l => x.written.words l (clean [BitVec.ofNat 32
        (if !valid l then 1 else if dst l ∉ s.coresOf d then 3 else 4 + 256 * x.dirIndex l)]))) ∧
      u.moves = s.moves ++ ms ∧ ms.map (·.lane) = (x.lanes.filter moves).map some ∧
      (∀ m ∈ ms, ∀ l, m.lane = some l → m.vd = x.f.t.vd ∧ m.src = x.f.core ∧ m.idx = x.dirIndex l ∧ m.dst = dst l ∧
        m.beam = x.ref ∧ m.fill = f.id ∧ m.st = .requested ∧
        m.addr = if x.h.c = .none then none else some (BitVec.ofNat 56 (x.val x.h.c .n64 l))) ∧
      (∀ i, u.entryAt x i = if ∃ l ∈ x.lanes, moves l = true ∧ x.dirIndex l = i then { s.entryAt x i with state := 2 }
        else s.entryAt x i))

/-- solicit of a beam that is no responder, with a handler index below the number of its kernel's responders, empties D
and adds to the waiting censuses one with its key, mask, argument, combine, entry and declarations; otherwise its
results are 0, 0, 0 and all ones. respond of a beam whose executing threads may all respond closes each of their
responders with the value of A on its way, or an error where A is poisoned; where some may not, the lower ones
respond, and the beam takes the census fault of the lowest thread that may not. The model's choice: both hold while an
earlier access of the path is in flight (log entries 34 and 109). (14_census.md, R307, R324, R325, R310) -/
def Obligations.CensusWords : Prop :=
  (∀ (h : Head) (m : Comb) (s : State) (x : Iss), s.passes (.solicit h m) = some x → x.lanes ≠ [] →
    let k := (x.f.b.reg x.h.c 0 1).val.toNat % 16
    (x.f.b.resp ≠ none ∨ x.f.b.decl.resps.length ≤ k →
      exec (.solicit h m) s = .next (s.apply x (.send (x.outWords 0 (clean [0, 0, 0, 0xFFFF_FFFF])) s))) ∧
    (x.f.b.resp = none → ∀ entry, x.f.b.decl.resps[k]? = some entry →
      (s.releaseHold x = true → exec (.solicit h m) s = .next s) ∧
      (s.releaseHold x = false → ∀ d, s.vds.look x.f.t.vd = some d → ∃ u d' c, exec (.solicit h m) s = .next (s.apply x (.sent u)) ∧
        u.mem = s.mem ∧ u.fills = s.fills ∧ u.beam? x.f.core x.f.slot = some (x.f.b.empty x.written) ∧
        u.vds.look x.f.t.vd = some d' ∧ d' = { d with waiting := d.waiting ++ [c] } ∧ c.vd = x.f.t.vd ∧ c.launch = x.f.t.launch ∧
        c.beam = x.ref ∧ c.names = x.written ∧ c.comb = m ∧ c.key = BitVec.ofNat 64 (x.val x.h.a .n64 0) ∧
        c.mask = BitVec.ofNat 64 (x.val x.h.b .n64 0) ∧ c.arg = (x.f.b.reg x.h.c 0 0).val ∧ c.entry = entry ∧ c.decl = x.f.b.decl ∧
        c.scanned = [] ∧ c.reported = [] ∧ c.expected = 0 ∧ c.resps = [] ∧ c.held = none ∧ c.answers = 0 ∧ c.errors = 0))) ∧
  (∀ (h : Head) (s : State) (x : Iss), s.passes (.respond h) = some x → x.lanes ≠ [] →
    let answered (u : State) (l : Nat) : Prop := ∀ slot id r, x.f.t.census = some slot → x.f.t.lanes[l]? = some id →
      s.respOf x.f.t.vd slot id = some r → u.respOf x.f.t.vd slot id = some { r with
        closed := true, msg := some (if x.pz x.h.a .n64 l then none else some (BitVec.ofNat 64 (x.val x.h.a .n64 l))) }
    (s.releaseHold x = true → exec (.respond h) s = .next s) ∧
    (s.releaseHold x = false → (∀ l ∈ x.lanes, mayRespond s x l) → ∃ u : State, exec (.respond h) s = .next (s.apply x (.sent u)) ∧
      u = { s with vds := u.vds } ∧ ∀ l ∈ x.lanes, answered u l) ∧
    (s.releaseHold x = false → ∀ l ∈ x.lanes, ¬mayRespond s x l → (∀ j ∈ x.lanes, j < l → mayRespond s x j) →
      ∃ u : State, exec (.respond h) s = .next (s.apply x (.trapIn { cause := 0x0E, lane := l } u)) ∧ u = { s with vds := u.vds } ∧
        ∀ j ∈ x.lanes, j < l → answered u j))

/-- sread completes with the words of its special register for each executing thread; of %emask and %ekind it holds while
a prism instruction of the beam is in flight; %cyc reads a value that the core's counter then holds. swrite sets
%emask to its value, %ekind of each executing lane to its value's bits of R375, %tpc to a code address with DONE
cleared, and of %tcause only DONE, and changes nothing else. fmt sets FMT of the issuing path to its register, or to
the immediate times 4,096, where R140 allows the value, and otherwise takes the illegal-instruction trap with reason
0x04; a word of fmt with an immediate that R140 forbids is illegal whatever its guard. The model's choices: swrite
takes effect at its issue, also with a prism instruction in flight (log entry 44); the value of %cyc is a free one
(log entry 6); a register's value is looked at when fmt executes (log entry 119). (07_matrix_isa.md, 17_recovery.md,
R24, R30, R140, R145, R173, R174, R374, R375) -/
def Obligations.SpecialRegisters : Prop :=
  (∀ (h : Head) (s : State) (x : Iss) r, s.passes (.sread h) = some x → x.h.a = .spr r →
    (r = .emask ∨ r = .ekind → s.recordHeld x = true → exec (.sread h) s = .next s) ∧
    (r ≠ .cyc → (r = .emask ∨ r = .ekind → s.recordHeld x = false) →
      exec (.sread h) s = .next (s.apply x (.write (x.each (fun l => x.outWords l (clean (x.specialWords l r)))) s))) ∧
    (r = .cyc → x.lanes ≠ [] → ∃ u v, exec (.sread h) s = .next (s.apply x
        (.write (x.each (fun l => x.outWords l (clean (wordsIn 2 v)))) u)) ∧
      v < 2 ^ 64 ∧ (u.core x.f.core).cyc = BitVec.ofNat 64 v ∧ u.mem = s.mem ∧ (∀ core slot, u.beam? core slot = s.beam? core slot))) ∧
  (∀ (h : Head) (s : State) (x : Iss) r, s.passes (.swrite h) = some x → x.h.d = .spr r → x.lanes ≠ [] →
    ∃ f : Beam → Beam, exec (.swrite h) s = .next (s.apply x (.sent (s.updBeam x.f.core x.f.slot f))) ∧
      ∀ l0, x.lanes.head? = some l0 →
        let w : Word := BitVec.ofNat 32 (x.val x.h.a .n32 l0)
        match r with
        | .emask => ∀ b, f b = { b with emask := w }
        | .ekind => ∀ b, f b = { b with ekind := (f b).ekind } ∧
            (∀ l ∈ x.lanes, (f b).ekind.getD l 0 = BitVec.ofNat 32 (x.val x.h.a .n32 l) &&& 0xFF7) ∧
            ∀ l, l ∉ x.lanes → (f b).ekind.getD l 0 = b.ekind.getD l 0
        | .tpc => ∀ b, f b = { b with tpc := w &&& 0xFF00_1FFF, tcause := b.tcause &&& 0xDFFF_FFFF }
        | .tcause => ∀ b, f b = { b with tcause := (b.tcause &&& 0xDFFF_FFFF) ||| (w &&& 0x2000_0000) }
        | _ => ∀ b, f b = b) ∧
  (∀ (h : Head) (s : State) (x : Iss), s.passes (.fmt h) = some x → x.lanes ≠ [] →
    let w : Word := if x.h.a = .imm then BitVec.ofNat 32 (x.h.imm.toNat * 4096) else (x.f.b.reg x.h.a 0 0).val
    (fmtOk w = true → exec (.fmt h) s = .next (s.apply x (.sent (s.updBeam x.f.core x.f.slot (fun b => { b with
      flow := { b.flow with paths := b.flow.paths.map (fun p => if p.st = .running then { p with fmt := w } else p) } }))))) ∧
    (fmtOk w = false → exec (.fmt h) s = .next (s.apply x (.trap { cause := 0x01, reason := 0x04 })))) ∧
  (∀ (lim : Limits) (h : Head), h.a = .imm → fmtOk (BitVec.ofNat 32 (h.imm.toNat * 4096)) = false →
    ∃ r, entryReason lim .fmt h .none = some r ∧ r.toNat ≤ 4)

/-- rte holds while a prism instruction that its beam has issued in the handler is in flight. Otherwise rte of a beam with
a handler record, no pre-emption order waiting and a flow that does not end: the beam stands with no handler, its
registers and predicates as they were; where DONE is 1 the selector of the instruction at %tpc is applied to the
frozen paths there: the recorded one, or, where the handler has moved %tpc or set DONE for an instruction that
recorded none, the one that its word has; otherwise the frozen path issues at %tpc if it was awake with no selector
pending, and the flow is the frozen one if not; it sleeps as it did. errq with A even fills D with the oldest error
entry, which leaves the queue, or zeros; with A odd, with the four counters, and nothing changes. kill with A even
kills the team: no beam of it stands, the core has no team, one entry of type 0x0A is written, and no team of the
launch that has not been placed is ever placed; with A odd every placed team of the launch is killed. The model's
choices: kill with A even fixes the launch's code to KILLED (log entry 90); which selector a DONE that the handler has
set applies, and none where that word is not resident, illegal or faulting (log entry 120); rte's hold, so that a
second mismatch finds the handler it is to set back (177). (17_recovery.md, R370, R373, R379, R380, R381) -/
def Obligations.ReturnsErrorsKills : Prop :=
  (∀ (h : Head) (s : State) (x : Iss), s.passes (.rte h) = some x → x.lanes ≠ [] →
    (∃ f ∈ s.fills, f.beam = x.ref ∧ ∃ p, f.prism = some p ∧ p.handled = true) → exec (.rte h) s = .next s) ∧
  (∀ (h : Head) (s : State) (x : Iss) k, s.passes (.rte h) = some x → x.lanes ≠ [] → x.f.b.handler = some k → x.f.b.ordered = false →
    (∀ f ∈ s.fills, f.beam = x.ref → ∀ p, f.prism = some p → p.handled = false) →
    let at_ (p : Path) : Path := { p with pc := x.f.b.tpc }
    let own (p : Path) : Option Sel :=
      s.selectorAt x.f.core x.f.slot { x.f.b with handler := none, flow := k.frozen.setRun at_ } (at_ p)
    let sel : Option Sel :=
      match x.f.b.tcause.getLsbD 29, k.frozen.run, k.nas with
      | true, some p, some n => if p.pc = x.f.b.tpc then some n else own p
      | true, some p, none => if k.sleep = .ready ∧ k.pend = none then own p else none
      | _, _, _ => none
    let fl : Flow :=
      match sel with
      | some n => (k.frozen.setRun at_).advance n.head n.gm n.targets
      | none =>
        match k.sleep, k.pend, k.frozen.run with
        | .ready, none, some p => ({ k.frozen with paths := k.frozen.others }.addRunning (at_ p)).settle
        | _, _, _ => k.frozen
    fl.paths ≠ [] → ∃ t b, exec (.rte h) s = .next t ∧ t.beam? x.f.core x.f.slot = some b ∧ t.mem = s.mem ∧ b.handler = none ∧
      b.flow = fl ∧ b.sleep = k.sleep ∧ b.pend = k.pend ∧ b.v = x.f.b.v ∧ b.c = x.f.b.c ∧ b.m = x.f.b.m ∧ b.p = x.f.b.p ∧ b.q = x.f.b.q ∧
      b.latch = none ∧ (∀ core slot, (core, slot) ≠ (x.f.core, x.f.slot) → t.beam? core slot = s.beam? core slot)) ∧
  (∀ (s : State) (core slot : Nat) (b : Beam) (p : Path) (t : Team) (k : Nat) (d : VDev) (op : Op) (h : Head) (ms : Mods) (i : Instr),
    let w := (s.core core).word k (idxOf p.pc)
    s.teamOf core b = some t → (s.core core).slotOf (ovlOf p.pc) = some k → s.vds.look t.vd = some d → illegalReason b.limits w = none →
    decodeWord w = some i → i.view = some (op, h, ms) → h.nas = .seq → idxOf p.pc < 5460 →
    s.selectorAt core slot b p = some { head := h, gm := b.guardMask p h, targets := [] }) ∧
  (∀ (h : Head) (s : State) (x : Iss) (d : VDev), s.passes (.errq h) = some x → x.lanes ≠ [] → s.vds.look x.f.t.vd = some d →
    (x.val x.h.a .n32 0 % 2 = 1 → exec (.errq h) s = .next (s.apply x (.send (x.outWords 0 (clean (wordsIn 8
      (d.dropped.toNat + 2 ^ 64 * d.overflow.toNat + 2 ^ 128 * d.poisoned.toNat + 2 ^ 192 * d.retries.toNat)))) s))) ∧
    (x.val x.h.a .n32 0 % 2 = 0 → ∃ (u : State) (d' : VDev), u = { s with vds := u.vds } ∧ u.vds.look x.f.t.vd = some d' ∧
      d' = { d with errq := d.errq.drop 1 } ∧
      exec (.errq h) s = .next (s.apply x (.send (x.outWords 0 (clean (wordsIn 8
        (match d.errq with | [] => 0 | e :: _ => e.toNat)))) u)))) ∧
  (∀ (h : Head) (s : State) (x : Iss) (d : VDev), s.passes (.kill h) = some x → x.lanes ≠ [] → x.f.b.resp = none → s.vds.look x.f.t.vd = some d →
    x.val x.h.a .n32 0 % 2 = 0 →
    ∃ (t : State) (d' : VDev), exec (.kill h) s = .next t ∧ (t.core x.f.core).team = none ∧
      (∀ slot b, t.beam? x.f.core slot = some b → b.resp ≠ none) ∧ t.vds.look x.f.t.vd = some d' ∧
      (d.errq.length < 256 → d'.errq = d.errq ++ [errEntry 0x0A 3 0 1 (s.launchLow x.f.t.vd x.f.t.launch) x.f.core x.pc.toNat 0]) ∧
      (∀ l, d.launches.look x.f.t.launch = some l → ∃ l' : Launch, d'.launches.look x.f.t.launch = some l' ∧
        l'.teams.look x.f.t.index = some .killed ∧ l'.killed = l.killed + 1 ∧ l'.code = some (l.code.getD 3) ∧ l'.next = l.count ∧ l'.again = [])) ∧
  (∀ (h : Head) (s : State) (x : Iss) l, s.passes (.kill h) = some x → x.lanes ≠ [] → x.f.b.resp = none → x.val x.h.a .n32 0 % 2 = 1 →
    s.launch? x.f.t.vd x.f.t.launch = some l →
    ∃ t l', exec (.kill h) s = .next t ∧ t.launch? x.f.t.vd x.f.t.launch = some l' ∧ l'.code = some (l.code.getD 3) ∧ l'.again = [] ∧
      l'.next = l.count ∧
      ∀ i n tm, l.teams.look i = some (.resident n) → (s.core n).team = some tm → tm.vd = x.f.t.vd → tm.launch = x.f.t.launch →
        tm.index = i → (t.core n).team = none) ∧
  (∀ (h : Head) (s : State) (x : Iss) r, s.passes (.kill h) = some x → x.lanes ≠ [] → x.f.b.resp = some r →
    ∃ t, exec (.kill h) s = .next t ∧ (t.core x.f.core).resps.look r = none ∧ ∀ slot b, t.beam? x.f.core slot = some b → b.resp ≠ some r)

/-- A beam is a saved one as its block gives it back, with the block's bytes and its poisoned lines: every register, the flow, and the trap
state. -/
def Restored (b saved : Beam) (bs : List Byte) (bad : List Nat) : Prop :=
  let word (k l : Nat) : List Byte := (bs.drop (4096 + 128 * k + 4 * l)).take 4
  b.idx = saved.idx ∧ b.decl = saved.decl ∧ b.flow = saved.flow ∧ b.handler = saved.handler ∧ b.c = saved.c ∧ b.p = saved.p ∧ b.q = saved.q ∧
  b.tcause = saved.tcause ∧ b.tpc = saved.tpc ∧ b.taddr = saved.taddr ∧ b.emask = saved.emask ∧ b.ekind = saved.ekind ∧
  b.triggered = saved.triggered ∧
  (∀ n < b.decl.vregs, ∀ l < 32, (b.vreg l n).val = BitVec.ofNat 32 (leNat (word n l)) ∧
    (blockLine n l ∈ bad → saved.badLine (blockLine n l) = false → (b.vreg l n).pz = true)) ∧
  ∀ n l, l < 32 →
    let r := b.mreg l n
    let o := saved.mreg l n
    r.rows = o.rows ∧ r.cols = o.cols ∧ r.tag = o.tag ∧ (o.pz = true → r.pz = true) ∧
    r.img = ((List.range b.decl.mcap).flatMap (fun j => word (b.decl.vregs + b.decl.mcap * n + j) l)).take o.img.length

/-- What a beam that was asleep when it was saved is in when it resumes: awake where the barrier has completed since (R276). -/
def wakesAs (t : Team) (idx : Nat) : Sleep → Sleep
  | .bar n => if idx ∈ (t.bars.getD n {}).arrived then .bar n else .ready
  | .cbar n => if idx ∈ (t.cbars.getD n {}).arrived then .cbar n else .ready
  | w => w

/-- The flow with which a beam resumes, as `rte` resumes (R373): a recorded selector is applied at `%tpc`, a beam that is awake issues there,
and one that is asleep stands as it was. -/
def resumesAt (b : Beam) (k : Handler) (w : Sleep) (sel : Option Sel) : Flow :=
  match sel with
  | some n => (k.frozen.setRun (fun p => { p with pc := b.tpc })).advance n.head n.gm n.targets
  | none =>
    match w, k.pend, k.frozen.run with
    | .ready, none, some p => ({ k.frozen with paths := k.frozen.others }.addRunning { p with pc := b.tpc }).settle
    | _, _, _ => k.frozen

/-- ctxsv holds while something of the beam is in flight or a register but its status is empty, ctxld while an access
before it is in flight or a copy or ovl has reads due. Either waits for the walk of a page whose translation is not at
hand, and holds while a page lies behind a port that is out. Otherwise ctxsv of an address that is no multiple of 4
KiB answers 3, of one without its rights that access's code, of a beam with a poisoned register whose block would
leave the virtual device 2, and otherwise writes 4,096 bytes of control section, then the v registers, register by
register and lane by lane, then the matrix slots, page by page and nothing else, with a poisoned line for each that
holds a poisoned register, records the beam, and answers 0, or in a handler of cause 0x11 the beam issues nothing
more. ctxld answers 3, the access's code, or 5 where no saved beam of this virtual device, number and declarations
stands behind the block's control section, or a line of it is poisoned; otherwise the beam is the saved one, with its
trap state, v registers and matrix images as in the block and v registers poisoned where a line that the save did not
mark is, and the slot's next generation tag; it waits while another beam of the team has not been restored. With the
last one every beam of the team leaves its handler and resumes as rte resumes it, awake where its barrier has
completed. The model's choices: the content of the control section (log entry 11), pages resolved before a byte is
written (log entry 32), which blocks are accepted (log entry 33), a poisoned control section (log entry 122), ctxld's
hold (log entry 34), the wait for a walk (log entry 38), the hold behind a port that is out (log entry 134; R392).
(17_recovery.md, R237, R376, R377, R378, R384, R385, R386) -/
def Obligations.ContextsSavedAndRestored : Prop :=
  let code (x : Iss) (n : Nat) : RegOut := x.outWords 0 (clean [BitVec.ofNat 32 n])
  let waits (i : Instr) (s : State) (x : Iss) (u : State) : Prop :=
    exec i s = .next u ∧ SameFlight s u ∧ u.mem = s.mem ∧ ∃ w ∈ u.walks, ∃ e ∈ w.beams, e.1 = x.ref
  (∀ (s : State) (x : Iss) (va n : Nat) (need : Rights) (tr : Nat → Trans),
    let p (k : Nat) : Place := s.place x.f.t.vd (tr k) (va + 4096 * k) 4096 need
    (∀ k < (n + 4095) / 4096, va + 4096 * k < 2 ^ 56 ∧ cached (s.core x.f.core).tlb x.f.t.vd (va + 4096 * k) = some (tr k) ∧
      (∀ c, p k ≠ .fail c) ∧ s.placeHeld x.f.t.vd (p k) = false) →
    s.blockPlaces x va n need = (.at_ ((List.range ((n + 4095) / 4096)).map p), s)) ∧
  (∀ (h : Head) (s : State) (x : Iss), s.passes (.ctxsv h) = some x → x.lanes ≠ [] → s.saveHeld x = false →
    let va := x.val x.h.a .n64 0
    let size := 4096 + 128 * x.f.b.decl.vregs + 128 * (x.f.b.decl.mcap * x.f.b.decl.mcount)
    (va % 4096 ≠ 0 → exec (.ctxsv h) s = .next (s.apply x (.send (code x 3) s))) ∧
    (va % 4096 = 0 → ∀ c u, s.blockPlaces x va size { w := true } = (.fail c, u) →
      exec (.ctxsv h) s = .next (s.apply x (.send (code x c) u))) ∧
    (va % 4096 = 0 → ∀ u, s.blockPlaces x va size { w := true } = (.walk, u) → waits (.ctxsv h) s x u) ∧
    (va % 4096 = 0 → ∀ u, s.blockPlaces x va size { w := true } = (.held, u) → exec (.ctxsv h) s = .next s) ∧
    (va % 4096 = 0 → ∀ (ps : List Place) (u : State), s.blockPlaces x va size { w := true } = (.at_ ps, u) →
      (x.f.b.tainted = true → (∃ p ∈ ps, u.leaks x.f.t.vd p 4096 = true) →
        exec (.ctxsv h) s = .next (s.apply x (.send (code x 2) (u.meets x true)))) ∧
      ((x.f.b.tainted = true → ∀ p ∈ ps, u.leaks x.f.t.vd p 4096 = false) → ∃ (t : State) (id : Nat) (bs : List Byte),
      exec (.ctxsv h) s = .next (s.apply x
        (if x.f.b.handler.map (·.cause) = some 0x11 then .sleep .saved t else .send (code x 0) t)) ∧
      t.blocks = s.blocks.put id (x.f.t.vd, x.f.b.recorded) ∧ bs.length = size ∧ bs.take 4096 = controlSection id ∧
      (∀ n < x.f.b.decl.vregs, ∀ l < 32, leNat ((bs.drop (4096 + 128 * n + 4 * l)).take 4) = (x.f.b.vreg l n).val.toNat) ∧
      (∀ n < x.f.b.decl.mcount, ∀ j < x.f.b.decl.mcap, ∀ l < 32,
        leNat ((bs.drop (4096 + 128 * (x.f.b.decl.vregs + x.f.b.decl.mcap * n + j) + 4 * l)).take 4) =
          leNat (((x.f.b.mreg l n).img.drop (4 * j)).take 4)) ∧
      (∀ a, (∀ p ∈ ps, ∀ pa, p = .here pa → a < pa ∨ pa + 4096 ≤ a) → Memory.read t.mem a = Memory.read s.mem a) ∧
      (∀ k pa, ps[k]? = some (.here pa) → s.shut pa = false →
        (∀ j pb, k < j → ps[j]? = some (.here pb) → pa + 4096 ≤ pb ∨ pb + 4096 ≤ pa) →
        Memory.readN t.mem pa ((bs.drop (4096 * k)).take 4096).length = (bs.drop (4096 * k)).take 4096 ∧
        ∀ i < 64, x.f.b.badLine (64 * k + i) = true → pa / 64 + i ∈ t.linePz)))) ∧
  (∀ (h : Head) (s : State) (x : Iss), s.passes (.ctxsv h) = some x → x.lanes ≠ [] → s.saveHeld x = true → exec (.ctxsv h) s = .next s) ∧
  (∀ (h : Head) (s : State) (x : Iss), s.passes (.ctxld h) = some x → x.lanes ≠ [] → s.releaseHold x = true → exec (.ctxld h) s = .next s) ∧
  (∀ (h : Head) (s : State) (x : Iss), s.passes (.ctxld h) = some x → x.lanes ≠ [] → s.releaseHold x = false → (∀ a, s.shut a = false) →
    let va := x.val x.h.a .n64 0
    (va % 4096 ≠ 0 → exec (.ctxld h) s = .next (s.apply x (.send (code x 3) s))) ∧
    (va % 4096 = 0 → ∀ c u, s.blockPlaces x va x.f.b.decl.blockSize { r := true } = (.fail c, u) →
      exec (.ctxld h) s = .next (s.apply x (.send (code x c) u))) ∧
    (va % 4096 = 0 → ∀ u, s.blockPlaces x va x.f.b.decl.blockSize { r := true } = (.walk, u) → waits (.ctxld h) s x u) ∧
    (va % 4096 = 0 → ∀ u, s.blockPlaces x va x.f.b.decl.blockSize { r := true } = (.held, u) → exec (.ctxld h) s = .next s) ∧
    (va % 4096 = 0 → ∀ (ps : List Place) (u : State), s.blockPlaces x va x.f.b.decl.blockSize { r := true } = (.at_ ps, u) →
      let bs := (u.getBlock ps).1
      let bad := (u.getBlock ps).2
      ((∃ j ∈ bad, j < 64) ∨ (∀ e ∈ s.blocks, e.2.1 = x.f.t.vd → e.2.2.idx = x.f.b.idx → e.2.2.decl = x.f.b.decl → bs.take 4096 ≠ controlSection e.1) →
        exec (.ctxld h) s = .next (s.apply x (.send (code x 5) (u.meets x (decide (bad ≠ [])))))) ∧
      (∀ e, (∀ j ∈ bad, 64 ≤ j) → s.blocks.find? (fun e => e.2.1 == x.f.t.vd && e.2.2.idx == x.f.b.idx && e.2.2.decl == x.f.b.decl &&
          bs.take 4096 == controlSection e.1) = some e →
        let mates (slot : Nat) (b : Beam) : Prop := slot ≠ x.f.slot ∧ s.beam? x.f.core slot = some b ∧ b.resp = none
        let gen := (s.core x.f.core).beamGens.getD x.f.slot 0 + 1
        ((∃ slot b, mates slot b ∧ b.sleep ≠ .joining) →
          ∃ t b, exec (.ctxld h) s = .next t ∧ t.mem = s.mem ∧ t.beam? x.f.core x.f.slot = some b ∧ b.sleep = .joining ∧ b.gen = gen ∧
            Restored b e.2.2 bs bad) ∧
        (x.f.b.resp = none → (∀ slot b, mates slot b → b.sleep = .joining) →
          ∃ t r, exec (.ctxld h) s = .next t ∧ t.mem = s.mem ∧ Restored r e.2.2 bs bad ∧ r.gen = gen ∧ r.ordered = x.f.b.ordered ∧
            let member (slot : Nat) (b : Beam) : Prop := slot = x.f.slot ∧ b = r ∨ mates slot b
            let w (b : Beam) (k : Handler) : Sleep := wakesAs x.f.t b.idx k.sleep
            let fl (slot : Nat) (b : Beam) (k : Handler) : Flow :=
              resumesAt b k (w b k) (s.returnSel x.f.core slot b { k with sleep := w b k })
            (∀ slot b k, member slot b → b.handler = some k → b.ordered = false ∧ (fl slot b k).paths ≠ []) →
            ∀ slot b k, member slot b → b.handler = some k → ∃ b', t.beam? x.f.core slot = some b' ∧ b'.handler = none ∧
              b'.flow = fl slot b k ∧ b'.sleep = w b k ∧ b'.pend = k.pend ∧ b'.gen = b.gen ∧ b'.v = b.v ∧ b'.c = b.c ∧ b'.m = b.m ∧
              b'.p = b.p ∧ b'.q = b.q ∧ b'.latch = none))))
/-! ### Results and censuses arrive -/

/-- A prism completion with no mismatch, or one, fills the instruction's registers with its results; bit L of %emask
becomes 1 for each executing thread with an exception and 0 for each without; %ekind of each executing thread becomes
its kind, 0 where it raised no exception; every other bit, register and thread is as before. A beam that slept in it
wakes: with MTE and an exception it takes the trap of cause 0x05 after completion, with its selector left to rte, and
otherwise its selector takes effect. One mismatch also writes an entry of type 0x02 and counts a retry; two retire the
core. A plain fill writes and fills its registers; one whose beam is gone is dropped, and counted once where it is a
status, however many lanes a dirmove's has, which is the model's choice (log entry 40). (06_matrix_model.md,
17_recovery.md, R64, R145, R146, R189, R388) -/
def Obligations.PrismCompletions : Prop :=
  let filled (b b' : Beam) (f : Fill) (p : PrismOut) (w : Sleep) (q : Option Sel) : Prop :=
    b' = { (b.write f.out).full f.names with
      emask := (b.emask &&& ~~~p.mask) ||| p.exc, ekind := putAll b.ekind p.kinds, sleep := w, pend := q, drain := b'.drain }
  (∀ (s : State) (id : Nat) (f : Fill) (p : PrismOut) (b : Beam), s.fills.find? (fun o => o.id == id) = some f → f.prism = some p →
    s.ref? f.beam = some b →
    (b.sleep ≠ .prism → ∃ t b', exec (.prismComplete id 0) s = .next t ∧ t.fills = s.fills.filter (fun o => o.id != id) ∧
      t.ref? f.beam = some b' ∧ filled b b' f p b.sleep b.pend ∧ (p.sample = none → t.mem = s.mem)) ∧
    (b.sleep = .prism → p.mte = true → p.exc ≠ 0 → ∃ (u : State) (b' : Beam), exec (.prismComplete id 0) s = .next (u.takeTrap f.beam.core f.beam.slot
        { cause := 0x05, done := true } p.pc b.pend) ∧
      u.ref? f.beam = some b' ∧ filled b b' f p .ready none) ∧
    (b.sleep = .prism → p.mte = false ∨ p.exc = 0 → b.ordered = false → ∀ n, b.pend = some n → ∃ (u : State) (b' : Beam),
      exec (.prismComplete id 0) s = .next (u.advance f.beam.core f.beam.slot n.head n.gm n.targets) ∧
      u.ref? f.beam = some b' ∧ filled b b' f p .ready none) ∧
    (b.sleep ≠ .prism → ∀ v l d, p.vd = v → p.launch = l → s.vds.look v = some d → ∃ t b' d', exec (.prismComplete id 1) s = .next t ∧
      t.ref? f.beam = some b' ∧ filled b b' f p b.sleep b.pend ∧ t.vds.look v = some d' ∧ d'.retries = d.retries + 1 ∧
      (d.errq.length < 256 → d'.errq = d.errq ++ [errEntry 0x02 0 0 1 (s.launchLow v l) f.beam.core p.pc.toNat 0])) ∧
    ∀ n, 2 ≤ n → ∃ t, exec (.prismComplete id n) s = .next t ∧ (t.core f.beam.core).retired = true) ∧
  (∀ (s : State) (id : Nat) (f : Fill), s.fills.find? (fun o => o.id == id) = some f → f.prism = none →
    s.moves.any (fun m => m.fill == id) = false → f.gop = none →
    ∃ t, exec (.registerFill id) s = .next t ∧ t.fills = s.fills.filter (fun o => o.id != id) ∧ t.mem = s.mem ∧
      (∀ b, s.ref? f.beam = some b → ∃ b' : Beam, t.ref? f.beam = some b' ∧ b' = { (b.write f.out).full f.names with drain := b'.drain }) ∧
      (s.ref? f.beam = none → SameBeams s t ∧ ∀ v d, f.drop = some v → s.vds.look v = some d →
        ∃ d' : VDev, t.vds.look v = some d' ∧ d'.dropped = d.dropped + 1))

/-- A waiting census takes the lowest free slot of 64. A scan at a core that it has not reached adds, for each directory
entry in ascending order that is valid or moving out, whose KEY equals its key under its mask and whose answered bit
of the slot is clear, a responder with that entry, and sets the bit; the core counts them; the responders of up to 32
successive entries share a beam; nothing of another core changes. The first group that waits and fits is placed in the
first slot with room as a beam of its own, whose lane j holds ADDR, LEN, TAG, KEY and index of the group's j-th
responder in v0 to v6 and whose c1, c5 and c6 hold their number, the argument and the census slot, running at the
entry with the lanes of responders still open. The model's choices: responders already closed start as exited lanes
(log entry 104); a group that fits is placed past one that does not (179); which of several groups goes first, and one
list of waiting censuses for all dies (180). (14_census.md, R305, R307, R308, R309, R311) -/
def Obligations.CensusOpensAndScans : Prop :=
  (∀ (s : State) (vd slot : Nat) (d : VDev) (c : Census) (rest : List Census), s.vds.look vd = some d → d.waiting = c :: rest →
    slot < 64 → d.slots.look slot = none → (∀ k < slot, d.slots.look k ≠ none) →
    ∃ t, exec (.censusSlotTaken vd) s = .next t ∧ t = { s with vds := t.vds } ∧
      t.vds.look vd = some { d with waiting := rest, slots := d.slots.put slot c }) ∧
  (∀ (s : State) (vd slot core : Nat) (d : VDev) (c : Census), s.vds.look vd = some d → d.slots.look slot = some c →
    core ∈ s.coresOf d → core ∉ c.scanned → slot < 64 →
    let e (i : Nat) : DirEntry := (s.core core).entry i
    let hits := (List.range 256).filter (fun i => ((e i).state == 1 || (e i).state == 2) &&
      ((e i).key ^^^ c.key) &&& c.mask == 0 && !(e i).answered.getLsbD slot)
    let marked (i : Nat) : DirEntry := { e i with answered := (e i).answered ||| (1#64 <<< slot) }
    ∃ t d' c' rs, exec (.censusScan vd slot core) s = .next t ∧ t.mem = s.mem ∧ t.vds.look vd = some d' ∧ d'.slots.look slot = some c' ∧
      c' = { c with scanned := c.scanned ++ [core], waits := c'.waits, counted := c'.counted, resps := c.resps ++ rs } ∧
      c'.counted.getD core 0 = c.counted.getD core 0 + hits.length ∧
      rs.map (fun r => (r.core, r.index, r.entry, r.placed, r.msg, r.closed)) = hits.map (fun i => (core, i, marked i, false, none, false)) ∧
      (∀ i j, ∀ p q, rs[i]? = some p → rs[j]? = some q → (p.batch = q.batch ↔ i / 32 = j / 32)) ∧
      (∀ i, (t.core core).entry i = if i ∈ hits then marked i else e i) ∧
      (∀ k, k ≠ core → t.core k = s.core k) ∧ (∀ k, t.beam? core k = s.beam? core k)) ∧
  (∀ (s : State) (core k slot : Nat) (c : Census) (g : List Resp),
    s.vds.findSome? (fun e => e.2.slots.findSome? (fun q =>
      if ((s.core core).roomFor q.2.decl).isSome then (q.2.group? core).map (fun g => (q.1, q.2, g)) else none)) = some (slot, c, g) →
    (s.core core).roomFor c.decl = some k → g.length ≤ 32 → 8 ≤ c.decl.vregs → 8 ≤ c.decl.cregs →
    ∃ t b mask, exec (.responderPlace core) s = .next t ∧ t.mem = s.mem ∧ s.beam? core k = none ∧ t.beam? core k = some b ∧
      b.resp = some k ∧ b.gen = (s.core core).beamGens.getD k 0 + 1 ∧ b.decl = c.decl ∧ b.flow = Flow.start mask c.entry ∧
      (∀ j < 32, mask.getLsbD j = match g[j]? with | some r => !r.closed | none => false) ∧
      (∀ j < 32, ∀ r, g[j]? = some r → [0, 1, 2, 3, 4, 5, 6].map (fun n => (b.vreg j n).val) =
        [BitVec.ofNat 32 r.entry.addr.toNat, BitVec.ofNat 32 (r.entry.addr.toNat / 2 ^ 32), r.entry.len, r.entry.tag
         , BitVec.ofNat 32 r.entry.key.toNat, BitVec.ofNat 32 (r.entry.key.toNat / 2 ^ 32), BitVec.ofNat 32 r.index]) ∧
      (b.creg 1).val = BitVec.ofNat 32 g.length ∧ (b.creg 5).val = c.arg ∧ (b.creg 6).val = BitVec.ofNat 32 slot ∧
      ∃ tm, (t.core core).resps.look k = some tm ∧ tm.vd = c.vd ∧ tm.launch = c.launch ∧ tm.census = some slot ∧
        tm.lanes = g.map (·.id) ∧ tm.decl = c.decl)

/-- A response or error that reaches the router is combined: under each COMBINE the held value becomes that of R313, with
the first value held as it is (count: 1 where it is not 0), and the count of answers or of errors is one higher. A
responder whose bound expires becomes an error where it has not answered, and its thread, where it runs still, ends. A
core whose scan has ended and whose moves have been acknowledged reports, and its count is expected. A census closes
once every core has reported, no responder is open or on its way, answers and errors make up the expected number, and
no ack that credits a spawn to it is on its way, and changes nothing before: its answered bit is then clear in every
entry of the virtual device's cores. Once each commit that was sent with that bit has been installed, at once where
there is none, its slot is free and its result registers hold the combined value, the answers and the errors, or are
dropped and counted where the beam is gone. The model's choices: one drop is counted for the census (log entry 40); a
responder that no report counts is waited for too, but its answer counts, and a credit on its way is waited for (log
entry 121). (14_census.md, R310, R311, R312, R313) -/
def Obligations.CensusAnswersAndCloses : Prop :=
  (∀ (s : State) (vd slot id : Nat) (d : VDev) (c : Census) (r : Resp) (m : Option DWord), s.vds.look vd = some d →
    d.slots.look slot = some c → c.resps.find? (fun o => o.id == id) = some r → r.msg = some m →
    let bigger (x y : DWord) : Bool := (codeNan .f32 x.toNat && !codeNan .f32 y.toNat) ||
      (!codeNan .f32 x.toNat && !codeNan .f32 y.toNat && decide (valueKey .f32 (x.toNat % 2 ^ 32) < valueKey .f32 (y.toNat % 2 ^ 32)))
    let smaller (x y : DWord) : Bool := (codeNan .f32 x.toNat && !codeNan .f32 y.toNat) ||
      (!codeNan .f32 x.toNat && !codeNan .f32 y.toNat && decide (valueKey .f32 (y.toNat % 2 ^ 32) < valueKey .f32 (x.toNat % 2 ^ 32)))
    ∃ t d' c', exec (.responseCombine vd slot id) s = .next t ∧ t = { s with vds := t.vds } ∧ t.vds.look vd = some d' ∧
      d'.slots.look slot = some c' ∧ c' = { c with resps := c'.resps, held := c'.held, answers := c'.answers, errors := c'.errors } ∧
      (∀ q ∈ c'.resps, q.id = id → q.msg = none ∧ q.closed = true) ∧ c'.resps.map (·.id) = c.resps.map (·.id) ∧
      (m = none → c'.held = c.held ∧ c'.answers = c.answers ∧ c'.errors = c.errors + 1) ∧
      (∀ y, m = some y → c'.answers = c.answers + 1 ∧ c'.errors = c.errors ∧ c'.held = some (match c.held, c.comb with
        | none, .count => if y = 0 then 0 else 1
        | none, _ => y
        | some x, .addI64 => x + y
        | some x, .addF32 => BitVec.ofNat 64 (Ty.f32.round .rne false (Ext.sum false [Ty.f32.decode x.toNat, Ty.f32.decode y.toNat]))
        | some x, .maxF32 => if bigger x y then y else x
        | some x, .minF32 => if smaller x y then y else x
        | some x, .or => x ||| y
        | some x, .count => if y = 0 then x else x + 1
        | some x, .first => x))) ∧
  (∀ (s : State) (id v slot : Nat) (r : Resp),
    s.vds.findSome? (fun e => e.2.slots.findSome? (fun q => (q.2.resps.find? (fun r => r.id == id)).map (fun r => (e.1, q.1, r)))) =
      some (v, slot, r) → r.closed = false →
    ∃ t, exec (.responderBoundExpiry id) s = .next t ∧ t.mem = s.mem ∧
      ∀ q, t.respOf v slot id = some q → q.closed = true ∧ q.msg = some none) ∧
  (∀ (s : State) (id core slot lane : Nat),
    s.cores.findSome? (fun c => (c.2.responders.find? (fun e => e.1 == id)).map (fun e => (c.1, e.2))) = some (core, slot, lane) →
    ∃ t, exec (.responderBoundExpiry id) s = .next t ∧ ∀ b, t.beam? core slot = some b → b.lives lane = false) ∧
  (∀ (s : State) (vd slot core : Nat) (d : VDev) (c : Census), s.vds.look vd = some d → d.slots.look slot = some c → core ∈ c.scanned →
    core ∉ c.reported → (∀ i ∈ c.waits.getD core [], ∀ m ∈ s.moves, m.id ≠ i) →
    ∃ (t : State) (d' : VDev), exec (.doneReport vd slot core) s = .next t ∧ t = { s with vds := t.vds } ∧ t.vds.look vd = some d' ∧
      d'.slots.look slot = some { c with reported := c.reported ++ [core], expected := c.expected + c.counted.getD core 0 }) ∧
  (∀ (s : State) (vd slot : Nat) (d : VDev) (c : Census), s.vds.look vd = some d → d.slots.look slot = some c →
    let going (m : Move) : Prop := ∃ i e, m.st = .committed i e
    let sent (m : Move) : Prop := m.vd = vd ∧ ∃ i e, m.st = .committed i e ∧ e.answered.getLsbD slot = true
    let over_ (t : State) (d' : VDev) : Prop :=
      let v := (combined c.comb c.held).toNat
      d'.slots.look slot = none ∧
      (∀ b, s.ref? c.beam = some b → ∃ b' : Beam, t.ref? c.beam = some b' ∧
        b' = (b.write (c.names.words 0 (clean [BitVec.ofNat 32 v, BitVec.ofNat 32 (v / 2 ^ 32), BitVec.ofNat 32 c.answers
                                               , BitVec.ofNat 32 c.errors]))).full c.names) ∧
      (s.ref? c.beam = none → d'.dropped = d.dropped + 1)
    (c.clearing = none → (∃ n ∈ s.coresOf d, n ∉ c.reported) ∨ (∃ r ∈ c.resps, r.closed = false ∨ r.msg ≠ none) →
      exec (.censusClose vd slot) s = .next s) ∧
    (c.clearing = none → (∀ n ∈ s.coresOf d, n ∈ c.reported) → (∀ r ∈ c.resps, r.closed = true ∧ r.msg = none) →
      (c.answers + c.errors < c.expected ∨ s.creditDue vd slot = true → exec (.censusClose vd slot) s = .next s) ∧
      (c.expected ≤ c.answers + c.errors → s.creditDue vd slot = false →
        ∃ (t : State) (d' : VDev), exec (.censusClose vd slot) s = .next t ∧ t.mem = s.mem ∧ t.vds.look vd = some d' ∧
          (∀ n ∈ s.coresOf d, ∀ i, (t.core n).entry i =
            { (s.core n).entry i with answered := ((s.core n).entry i).answered &&& ~~~(1#64 <<< slot) }) ∧
          ((∀ m ∈ s.moves, ¬sent m) → over_ t d') ∧
          ((∃ m ∈ s.moves, sent m) → (∀ core k, t.beam? core k = s.beam? core k) ∧ ∃ ids, d'.slots.look slot = some { c with clearing := some ids } ∧
            ∀ id, id ∈ ids ↔ ∃ m ∈ s.moves, m.id = id ∧ sent m))) ∧
    (∀ ids, c.clearing = some ids →
      ((∃ m ∈ s.moves, m.id ∈ ids ∧ going m) → exec (.censusClose vd slot) s = .next s) ∧
      ((∀ m ∈ s.moves, m.id ∈ ids → ¬going m) → ∃ (t : State) (d' : VDev), exec (.censusClose vd slot) s = .next t ∧ t.mem = s.mem ∧
        t.vds.look vd = some d' ∧ over_ t d')))

/-- A requested move reserves the destination's lowest free entry, which becomes incoming, or is refused. A granted move's
source entry becomes free, and the move carries it with its new ADDR if it names one; a refused move's entry becomes
valid again and the move ends with status 2. A committed move's entry is installed at the destination as it was
carried, but for answered bits of censuses open there. An acknowledged move ends with status 256 times the index at
the destination; with the last move of its dirmove, D is filled. (14_census.md, R314, R322) -/
def Obligations.MovesProceed : Prop :=
  let at_ (s : State) (id : Nat) (m : Move) : Prop := s.moves.find? (fun o => o.id == id) = some m
  (∀ (s : State) (id : Nat) (m : Move), at_ s id m → m.st = .requested →
    (∀ i < 256, ((s.core m.dst).entry i).state = 0 → (∀ k < i, ((s.core m.dst).entry k).state ≠ 0) →
      ∃ t, exec (.moveReserve id) s = .next t ∧ t = { s with cores := t.cores, moves := t.moves } ∧ at_ t id { m with st := .granted i } ∧
        (t.core m.dst).entry i = { state := 3 } ∧ (∀ k, k ≠ i → (t.core m.dst).entry k = (s.core m.dst).entry k) ∧
        ∀ core slot, t.beam? core slot = s.beam? core slot) ∧
    ((∀ i < 256, ((s.core m.dst).entry i).state ≠ 0) →
      ∃ t, exec (.moveReserve id) s = .next t ∧ t = { s with moves := t.moves } ∧ at_ t id { m with st := .refused })) ∧
  (∀ (s : State) (id : Nat) (m : Move), at_ s id m →
    let e := (s.core m.src).entry m.idx
    (∀ i, m.st = .granted i → ∃ t, exec (.moveCommit id) s = .next t ∧ t = { s with cores := t.cores, moves := t.moves } ∧
      at_ t id { m with st := .committed i { e with addr := m.addr.getD e.addr, state := 1 } } ∧ (t.core m.src).entry m.idx = {} ∧
      (∀ k, k ≠ m.idx → (t.core m.src).entry k = (s.core m.src).entry k)) ∧
    (m.st = .refused → ∃ t, exec (.moveCommit id) s = .next t ∧ t.mem = s.mem ∧ t.moves = s.moves.filter (fun o => o.id != id) ∧
      (t.core m.src).entry m.idx = { e with state := 1 } ∧
      ∀ b f, s.ref? m.beam = some b → s.fills.find? (fun o => o.id == m.fill) = some f → f.beam = m.beam →
        (∀ o ∈ s.moves, o.fill = m.fill → o.id = id) → ∃ b' : Beam, t.ref? m.beam = some b' ∧
          b' = (b.write (f.out.join (f.names.words (m.lane.getD 0) (clean [2])))).full f.names)) ∧
  (∀ (s : State) (id i : Nat) (m : Move) (e : DirEntry), at_ s id m → m.st = .committed i e → e.state = 1 →
    ∃ t credits, exec (.moveInstall id) s = .next t ∧ t.mem = s.mem ∧ at_ t id { m with st := .acked i e credits } ∧
      (t.core m.dst).entry i = { e with answered := ((t.core m.dst).entry i).answered } ∧
      (∀ k, e.answered.getLsbD k = true → ((t.core m.dst).entry i).answered.getLsbD k = true) ∧
      (∀ k, k ≠ i → (t.core m.dst).entry k = (s.core m.dst).entry k)) ∧
  (∀ (s : State) (id i : Nat) (m : Move) (e : DirEntry) (credits : List Nat), at_ s id m → m.st = .acked i e credits →
    ∃ t, exec (.moveAck id) s = .next t ∧ t.mem = s.mem ∧ t.moves = s.moves.filter (fun o => o.id != id) ∧
      ∀ b f, s.ref? m.beam = some b → s.fills.find? (fun o => o.id == m.fill) = some f → f.beam = m.beam →
        (∀ o ∈ s.moves, o.fill = m.fill → o.id = id) → ∃ b' : Beam, t.ref? m.beam = some b' ∧
          b' = (b.write (f.out.join (f.names.words (m.lane.getD 0) (clean [BitVec.ofNat 32 (256 * i)])))).full f.names)
/-! ### Queues, launches and teams -/

/-- A packet event of an empty queue blocks its thread; TAIL more than the ring ahead halts with STATUS 2; a packet of the
event's kind that breaks its layout, one of KIND 0xA to 0xF, or a ring read that faults or meets poison, halts with
STATUS 1, HEAD unmoved. What a port that is out holds (log entry 141; R392) changes nothing but what the reads find.
Otherwise HEAD moves on by one with the packet's effect, on the state in which TAIL and the packet have been read:
none; a queued launch, which takes the deadline that waits; a copy in flight; a wait consumed where its masked word
meets its condition, else its thread blocks; a signal's value written or added once no work is left, else the thread
blocks, and an entry of type 0x0B where the write cannot be made; a shape variable set or added to; a graph read; a
warm-start slot bound; the next launch's deadline; a barrier consumed once no work is left. An unmapped running queue
with TAIL other than HEAD takes the lowest thread that has firmware and no queue; where there is none, that of a
mapped queue without work in flight: one that is halted, else one that is empty, else one blocked on a wait-value,
each the longest so, else, for the first queue of a waking device, the longest mapped of another device; and where
none qualifies nothing happens. The queue unmapped keeps HEAD, which is written, and all its work. A blocked thread
goes on where its condition holds. The model's choices here: no packet but a mapping, an unmapping or a halt writes
the descriptor (log entry 48), a signal needs the W right only (59), its entry has LAUNCH all ones (60), the thread
that is taken (98), TAIL below HEAD is an overrun (112), and a line lost to poison is a read that fails (47).
(13_scheduling.md, R280, R281, R282, R283, R285, R286, R289, R290) -/
def Obligations.QueuesReadPackets : Prop :=
  let events : List ((Nat → Nat → Instr) × Nat) := [(.nopPacket, 0), (.launchPacket, 1), (.copyPacket, 2), (.waitValuePacket, 3)
    , (.signalPacket, 4), (.setShapePacket, 5), (.graphPacket, 6), (.bindWarmPacket, 7), (.deadlinePacket, 8), (.barrierPacket, 9)]
  (∀ e ∈ events, ∀ (s : State) (v q : Nat) (d : VDev) (x : Queue), s.vds.look v = some d → d.queues.look q = some x →
    d.reads q x = true → (s.ringHeld v x = true → exec (e.1 v q) s = .next s) ∧ ∀ t, s.ringHeld v x = false → s.tail v x = some t →
    (t = x.head → ∃ (u : State) (x' : Queue), exec (e.1 v q) s = .next u ∧ u.mem = (s.saw v (x.desc + 24) 8).mem ∧ u.queue? v q = some x' ∧
      x' = { x with blocked := .empty, since := x'.since }) ∧
    (2 ^ x.log2n < (t + 2 ^ 64 - x.head) % 2 ^ 64 → t ≠ x.head →
      ∃ (u : State) (x' : Queue), exec (e.1 v q) s = .next u ∧ u.queue? v q = some x' ∧ x' = { x with status := 2, since := x'.since })) ∧
  (∀ e ∈ events, ∀ (s : State) (v q : Nat) (d : VDev) (x : Queue) (p : Nat), ReadsPacket s v q d x p → p % 16 = e.2 → packetOk p = false →
    ∃ (u : State) (x' : Queue), exec (e.1 v q) s = .next u ∧ u.queue? v q = some x' ∧ x' = { x with status := 1, since := x'.since }) ∧
  (∀ (s : State) (v q : Nat) (d : VDev) (x : Queue) (p : Nat), ReadsPacket s v q d x p → 10 ≤ p % 16 →
    ∃ (u : State) (x' : Queue), exec (.badPacket v q) s = .next u ∧ u.queue? v q = some x' ∧ x' = { x with status := 1, since := x'.since }) ∧
  (∀ (s : State) (v q : Nat) (d : VDev) (x : Queue) (t c : Nat), s.vds.look v = some d → d.queues.look q = some x → d.reads q x = true →
    s.ringHeld v x = false → s.tail v x = some t → t ≠ x.head → (t + 2 ^ 64 - x.head) % 2 ^ 64 ≤ 2 ^ x.log2n → (s.saw v (x.desc + 24) 8).packetAt v x = .error c →
    ∃ (u : State) (x' : Queue), exec (.badPacket v q) s = .next u ∧ u.queue? v q = some x' ∧ x' = { x with status := 1, since := x'.since }) ∧
  (∀ (s : State) (v q : Nat) (d : VDev) (x : Queue), s.vds.look v = some d → d.queues.look q = some x → s.tailLost v x = true →
    (d.reads q x = true → s.ringHeld v x = false → ∃ (u : State) (x' : Queue), exec (.badPacket v q) s = .next u ∧ u.queue? v q = some x' ∧
      x' = { x with status := 1, since := x'.since }) ∧
    (x.thread = none → x.status = 0 → d.power = .awake ∨ d.power = .waking ∧ d.stage < 3 → s.cpHeld v (x.desc + 24) 8 { r := true } = false →
      ∃ (u : State) (x' : Queue), exec (.queueMap v q) s = .next u ∧ u.queue? v q = some x' ∧
        x' = { x with status := 1, since := x'.since })) ∧
  (∀ (s : State) (v q : Nat) (d : VDev) (x : Queue) (p : Nat), ReadsPacket s v q d x p → packetOk p = true →
    let r := s.sawRing v x
    (p % 16 = 2 → r.statHeld v (slice p 256 64) = true → exec (.copyPacket v q) s = .next r) ∧
    (p % 16 = 3 → r.waitHeld v p = true → exec (.waitValuePacket v q) s = .next r) ∧
    (p % 16 = 4 → r.work v q = false → r.cpHeld v (slice p 64 64) (if slice p 4 1 = 1 then 8 else 4) { w := true } = true →
      exec (.signalPacket v q) s = .next r) ∧
    (p % 16 = 6 → r.imageHeld v p = true → exec (.graphPacket v q) s = .next r) ∧
    (p % 16 = 0 → ∃ u : State, exec (.nopPacket v q) s = .next u ∧ OnlyVd r u v ∧ u.queue? v q = some x.past) ∧
    (p % 16 = 1 → ∃ (u : State) (d' : VDev), exec (.launchPacket v q) s = .next u ∧ OnlyVd r u v ∧ u.vds.look v = some d' ∧
      d'.queues.look q = some { x.past with dline := 0 } ∧ d'.nextL = d.nextL + 1 ∧
      d'.launches.look d.nextL = some { queue := q, packet := BitVec.ofNat 512 p, node := none, dline := x.dline }) ∧
    (p % 16 = 2 → r.statHeld v (slice p 256 64) = false → slice p 192 64 ≠ 0 → slice p 64 64 % 4 = 0 → slice p 128 64 % 4 = 0 →
      ∃ (u : State) (c : PktCopy), exec (.copyPacket v q) s = .next u ∧ u.mem = r.mem ∧ u.queue? v q = some x.past ∧ u.pcopies = r.pcopies ++ [c] ∧ c.vd = v ∧
        c.queue = q ∧ c.src = slice p 64 64 ∧ c.dst = slice p 128 64 ∧ c.len = slice p 192 64 ∧ c.stat = slice p 256 64 ∧ c.node = none) ∧
    (p % 16 = 2 → r.statHeld v (slice p 256 64) = false → slice p 192 64 = 0 ∨ slice p 64 64 % 4 ≠ 0 ∨ slice p 128 64 % 4 ≠ 0 →
      ∃ u : State, exec (.copyPacket v q) s = .next u ∧ u.queue? v q = some x.past ∧ u.pcopies = r.pcopies) ∧
    (p % 16 = 3 → r.waitHeld v p = false →
      let n := if slice p 7 1 = 1 then 8 else 4
      let w := 8 * n
      (slice p 64 64 % n ≠ 0 → ∃ (u : State) (x' : Queue), exec (.waitValuePacket v q) s = .next u ∧ u.queue? v q = some x' ∧
        x' = { x with status := 1, since := x'.since }) ∧
      (slice p 64 64 % n = 0 → ∀ c u0, r.cpRead v (slice p 64 64) n = (.error c, u0) →
        ∃ (u : State) (x' : Queue), exec (.waitValuePacket v q) s = .next u ∧ u.queue? v q = some x' ∧
          x' = { x with status := 1, since := x'.since }) ∧
      (slice p 64 64 % n = 0 → ∀ bs u0, r.cpRead v (slice p 64 64) n = (.ok bs, u0) →
        let y := Nat.land (leNat bs) (slice p 192 w)
        let value := slice p 128 w
        let ahead : Prop := ((y : Int) - value) % 2 ^ w < 2 ^ (w - 1)
        let holds : Prop := match slice p 4 3 with
          | 0 => y = value
          | 1 => y ≠ value
          | 2 => ahead
          | 3 => ¬ahead
          | 4 => value ≤ y
          | _ => y < value
        (holds → ∃ u : State, exec (.waitValuePacket v q) s = .next u ∧ OnlyVd u0 u v ∧ u.queue? v q = some x.past) ∧
        (¬holds → ∃ (u : State) (x' : Queue), exec (.waitValuePacket v q) s = .next u ∧ u.queue? v q = some x' ∧
          x' = { x with blocked := .value (slice p 64 64), since := x'.since }))) ∧
    (p % 16 = 4 → r.work v q = true → ∃ (u : State) (x' : Queue), exec (.signalPacket v q) s = .next u ∧ u.mem = r.mem ∧ u.queue? v q = some x' ∧
      x' = { x with blocked := .work, since := x'.since }) ∧
    (p % 16 = 4 → r.work v q = false → r.cpHeld v (slice p 64 64) (if slice p 4 1 = 1 then 8 else 4) { w := true } = false →
      let n := if slice p 4 1 = 1 then 8 else 4
      let va := slice p 64 64
      (∀ pa, va % n = 0 → r.cpPlace v va n { w := true } = .here pa → r.shut pa = false →
        ∃ u : State, exec (.signalPacket v q) s = .next u ∧ u.queue? v q = some x.past ∧ SameOutside r u pa n ∧ leNat (Memory.readN u.mem pa n) =
          ((if slice p 5 1 = 1 then leNat (Memory.readN r.mem pa n) else 0) + slice p 128 (8 * n)) % 2 ^ (8 * n)) ∧
      (va % n ≠ 0 ∨ (∃ k, r.cpPlace v va n { w := true } = .fail k) → ∀ e, r.vds.look v = some e → e.errq.length < 256 →
        ∃ (u : State) (d' : VDev), exec (.signalPacket v q) s = .next u ∧ u.mem = r.mem ∧ u.queue? v q = some x.past ∧
          u.vds.look v = some d' ∧ d'.errq = e.errq ++ [errEntry 0x0B 0xFF 0 1 nobody nobody 0 va])) ∧
    (p % 16 = 5 → ∃ (u : State) (d' : VDev), exec (.setShapePacket v q) s = .next u ∧ OnlyVd r u v ∧ u.vds.look v = some d' ∧ d'.queues.look q = some x.past ∧
      let k := 32 * x.ctx + slice p 4 5
      let old := d.vars.getD k {}
      d'.vars.look k = some (if slice p 9 1 = 1 then { old with val := old.val + BitVec.ofNat 64 (slice p 64 64) }
        else { val := BitVec.ofNat 64 (slice p 64 64) }) ∧ ∀ j, j ≠ k → d'.vars.look j = d.vars.look j) ∧
    (p % 16 = 6 → r.imageHeld v p = false → ∃ u d' g, exec (.graphPacket v q) s = .next u ∧ u.vds.look v = some d' ∧ d'.queues.look q = some x.past ∧
      d'.nextG = d.nextG + 1 ∧ d'.graphs.look d.nextG = some g ∧ g.queue = q ∧ g.stat = slice p 128 64 ∧
      ((r.readGraph v (slice p 64 64)).1 = none → g.done = true ∧ g.nodes = []) ∧
      ∀ nodes, (r.readGraph v (slice p 64 64)).1 = some nodes → g.done = false → g.nodes.map (fun n => (n.1, n.2.packet, n.2.succ)) =
        nodes.map (fun n => (n.1, n.2.packet, n.2.succ))) ∧
    (p % 16 = 7 → ∃ u : State, exec (.bindWarmPacket v q) s = .next u ∧ OnlyVd r u v ∧ u.queue? v q = some { x.past with
      warm := x.warm.put (slice p 4 4) { bufA := slice p 64 64, bufB := slice p 128 64, phase := false } }) ∧
    (p % 16 = 8 → ∃ u : State, exec (.deadlinePacket v q) s = .next u ∧ OnlyVd r u v ∧ u.queue? v q = some { x.past with dline := slice p 64 64 }) ∧
    (p % 16 = 9 → (r.work v q = false → ∃ u : State, exec (.barrierPacket v q) s = .next u ∧ OnlyVd r u v ∧ u.queue? v q = some x.past) ∧
      (r.work v q = true → ∃ (u : State) (x' : Queue), exec (.barrierPacket v q) s = .next u ∧ u.queue? v q = some x' ∧
        x' = { x with blocked := .work, since := x'.since }))) ∧
  (∀ (s : State) (v q t k : Nat) (d : VDev) (x : Queue), s.vds.look v = some d → d.queues.look q = some x → x.thread = none → x.status = 0 →
    d.power = .awake ∨ d.power = .waking ∧ d.stage < 3 → s.cpHeld v (x.desc + 24) 8 { r := true } = false → s.tail v x = some t → t ≠ x.head → s.freeThread = some k → ∃ (u : State) (x' : Queue), exec (.queueMap v q) s = .next u ∧ u.queue? v q = some x' ∧
      x' = { x with thread := some k, blocked := .no, mapped := x'.mapped } ∧ (u.threads.getD k {}).queue = some (v, q)) ∧
  (∀ (s : State) (v q t : Nat) (d : VDev) (x : Queue), s.vds.look v = some d → d.queues.look q = some x → x.thread = none → x.status = 0 →
    d.power = .awake ∨ d.power = .waking ∧ d.stage < 3 → s.cpHeld v (x.desc + 24) 8 { r := true } = false → s.tail v x = some t →
    t ≠ x.head → s.freeThread = none →
    let taken (k : Nat) (e : Nat × Nat × Nat × Queue) : Prop :=
      (∃ th, (e.1, th) ∈ s.threads ∧ th.queue = some (e.2.1, e.2.2.1)) ∧ s.queue? e.2.1 e.2.2.1 = some e.2.2.2 ∧
      (k ≤ 2 → s.work e.2.1 e.2.2.1 = false) ∧ (k = 0 → e.2.2.2.status ≠ 0) ∧ (k = 1 → e.2.2.2.blocked = .empty) ∧
      (k = 2 → ∃ a, e.2.2.2.blocked = .value a) ∧ (k = 3 → d.served = false ∧ e.2.1 ≠ v)
    let since (k : Nat) (e : Nat × Nat × Nat × Queue) : Nat := if k ≤ 2 then e.2.2.2.since else e.2.2.2.mapped
    ((∀ k ≤ 3, ∀ e, ¬taken k e) → exec (.queueMap v q) s = .next s) ∧
    ∀ k ≤ 3, ∀ e, taken k e → (∀ j < k, ∀ f, ¬taken j f) → (∀ f, taken k f → f = e ∨ since k e < since k f) →
      ∃ (u : State) (x' : Queue), exec (.queueMap v q) s = .next u ∧ u = (s.unmap e.2.1 e.2.2.1).mapTo v q e.1 ∧ u.queue? v q = some x' ∧
        ((e.2.1, e.2.2.1) ≠ (v, q) → x' = { x with thread := some e.1, blocked := .no, mapped := x'.mapped }) ∧
        (u.threads.getD e.1 {}).queue = some (v, q)) ∧
  (∀ (s : State) (v q t : Nat) (x : Queue), s.queue? v q = some x → x.thread = some t →
    let u := s.unmap v q
    u.queue? v q = some { x with thread := none, blocked := .no } ∧ (u.threads.getD t {}).queue = none ∧ u.copies = s.copies ∧
      u.gops = s.gops ∧ u.pcopies = s.pcopies ∧ u.cores = s.cores ∧
      (∀ d, s.vds.look v = some d → ∃ d' : VDev, u.vds.look v = some d' ∧ d' = { d with queues := d'.queues }) ∧
      ∀ pa, s.cpPlace v (x.desc + 16) 8 { w := true } = .here pa → s.shut pa = false →
        SameOutside s u pa 8 ∧ leNat (Memory.readN u.mem pa 8) = x.head % 2 ^ 64) ∧
  (∀ (s : State) (thread v q : Nat) (x : Queue), (s.threads.getD thread {}).queue = some (v, q) → s.queue? v q = some x →
    (x.blocked = .work ∧ s.work v q = false ∨ x.blocked = .empty ∧ s.cpHeld v (x.desc + 24) 8 { r := true } = false ∧
        (s.tailLost v x = true ∨ ∃ t, s.tail v x = some t ∧ t ≠ x.head) ∨
      (∃ a, x.blocked = .value a) ∧ s.ringHeld v x = false ∧ ∃ p, s.packetAt v x = .ok p ∧ s.waitHeld v p = false ∧ s.waitTest v p = some true) →
    ∃ u : State, exec (.watchedWordRetest thread) s = .next u ∧ OnlyVd (s.sawWatched v x) u v ∧ u.queue? v q = some { x with blocked := .no })

/-- A copy packet in flight, the start or end of a node, or a bin's copy of its records, whose ports are out waits (log
entry 141; R392); otherwise its bytes move in ascending order, up to the first that fails, and it leaves the copies in
flight. Its status word, where it has one, holds then code 0, or the code of the failure and the address at which it
stopped, at the source or the destination; a word that is misaligned or may not be written leaves an entry of type
0x0B. A copy within one line of each end moves its bytes and changes no other; it stops with the walk's code at the
source, then at the destination, with code 4 where another device or a shut port refuses, and with code 2 where poison
would leave the virtual device. A waiting node one of whose ancestors is done with another status than 0, or has a
launch for which one is fixed, starts no team, and is done with status 7, a launch node as a launch that is done, with
a record; otherwise, where its edges are satisfied, its launch is made and dispatched, or its copy started. A
coalescing timer that runs over a bin with records makes a start due. A bin whose launch runs starts a team with its
oldest records, up to the team's threads, in the lowest free array: the launch has one team more, the spill area
refills the buffer in order, and no record is lost. The model's choices: a bin's node may start before its edges are
satisfied (log entry 51), its timer runs on (52), a skipped launch has no number (53), a fixed status counts (173),
LAUNCH of the entry is all ones (60). (11_execution.md, 13_scheduling.md, 17_recovery.md, R248, R249, R283, R290,
R291, R301, R302, R386, R392) -/
def Obligations.CopiesGraphsBins : Prop :=
  (∀ (s : State) (id : Nat) (c : PktCopy) (refused : Option (Nat × Bool)), s.pcopies.find? (fun o => o.id == id) = some c →
    s.cpHeld c.vd c.src c.len { r := true } = true ∨ s.cpHeld c.vd c.dst c.len { w := true } = true ∨ s.statHeld c.vd c.stat = true ∨
      s.graphHeld c.vd c.node = true →
    exec (.copyPacketComplete id refused) s = .next s) ∧
  (∀ (s m : State) (id : Nat) (c : PktCopy) (refused : Option (Nat × Bool)) (e : Option (Nat × Nat)),
    s.pcopies.find? (fun o => o.id == id) = some c → s.cpHeld c.vd c.src c.len { r := true } = false →
    s.cpHeld c.vd c.dst c.len { w := true } = false → s.statHeld c.vd c.stat = false → s.graphHeld c.vd c.node = false →
    State.copyGo c.vd c.src c.dst c.len refused (c.len + 1) 0 { s with pcopies := s.pcopies.filter (fun o => o.id != id) } = (e, m) →
    ∃ u : State, exec (.copyPacketComplete id refused) s = .next u ∧ u.pcopies = s.pcopies.filter (fun o => o.id != id) ∧
      (∀ k a, e = some (k, a) → ∃ o < c.len, a = c.src + o ∨ a = c.dst + o) ∧
      (c.node = none →
        let code := (e.map (·.1)).getD 0
        (c.stat = 0 → u.mem = m.mem) ∧
        (c.stat ≠ 0 → c.stat % 8 = 0 → ∀ pw, m.cpPlace c.vd c.stat 8 { w := true } = .here pw → m.shut pw = false →
          SameOutside m u pw 8 ∧ leNat (Memory.readN u.mem pw 8) = (code + 2 ^ 8 * ((e.map (·.2)).getD 0 % 2 ^ 56)) % 2 ^ 64) ∧
        (c.stat ≠ 0 → c.stat % 8 ≠ 0 ∨ (∃ k, m.cpPlace c.vd c.stat 8 { w := true } = .fail k) → u.mem = m.mem ∧
          ∀ d, m.vds.look c.vd = some d → d.errq.length < 256 → ∃ d', u.vds.look c.vd = some d' ∧
            d'.errq = d.errq ++ [errEntry 0x0B code 0 1 nobody nobody 0 c.stat]))) ∧
  (∀ (s : State) (v src dst n : Nat), 0 < n → src % 64 + n ≤ 64 → dst % 64 + n ≤ 64 →
    let go (refused : Option (Nat × Bool)) := State.copyGo v src dst n refused (n + 1) 0 s
    (∀ k refused, s.cpPlace v src n { r := true } = .fail k → go refused = (some (k, src), s)) ∧
    (∀ dev, s.cpPlace v src n { r := true } = .peer dev → ∃ m, go (some (0, false)) = (some (4, src), m)) ∧
    (∀ pa, s.cpPlace v src n { r := true } = .here pa → s.shut pa = false →
      (∀ k refused, s.cpPlace v dst n { w := true } = .fail k → go refused = (some (k, dst), s)) ∧
      (∀ dev, s.cpPlace v dst n { w := true } = .peer dev → go (some (0, true)) = (some (4, dst), s)) ∧
      (∀ pb, s.cpPlace v dst n { w := true } = .here pb →
        (∀ refused, s.shut pb = true → go refused = (some (4, dst), s)) ∧
        (∀ refused, s.shut pb = false → s.linePoisoned pa n = true → s.leaks v (.here pb) n = true → go refused = (some (2, dst), s)) ∧
        (s.shut pb = false → s.linePoisoned pa n = false ∨ s.leaks v (.here pb) n = false →
          ∃ m, go none = (none, m) ∧ SameOutside s m pb n ∧ Memory.readN m.mem pb n = Memory.readN s.mem pa n)))) ∧
  (∀ (s : State) (vd g n : Nat) (d : VDev) (gr : Graph) (nd : Node), s.vds.look vd = some d → d.graphs.look g = some gr →
    gr.nodes.look n = some nd → gr.done = false → nd.st = .waiting →
    let failed : Prop := ∃ a m k, Relation.TransGen (fun a b => ∃ t, (a, t) ∈ edgesTo gr.nodes b) a n ∧ gr.nodes.look a = some m ∧ k ≠ 0 ∧
      (m.st = .done k ∨ ∃ l x, m.launch = some l ∧ d.launches.look l = some x ∧ x.code = some k)
    (failed → s.graphHeld vd (some (g, n)) = true → exec (.graphNodeDispatch vd g n) s = .next s) ∧
    (¬failed → s.nodeHeld vd g n nd = true → exec (.graphNodeDispatch vd g n) s = .next s) ∧
    (failed → nd.launch = none → exec (.binTeamStart vd g n) s = .next s) ∧
    (failed → s.graphHeld vd (some (g, n)) = false → ∃ (u : State) (nd' : Node), exec (.graphNodeDispatch vd g n) s = .next u ∧
      u.node? vd g n = some nd' ∧ nd'.st = .done 7 ∧
      (nd.packet.toNat % 16 = 1 → nd'.launch = some d.nextL ∧ ∃ d' x bs rest, u.vds.look vd = some d' ∧ d'.launches.look d.nextL = some x ∧
        x.st = .done ∧ x.code = some 7 ∧ x.number = none ∧ x.node = some (g, n) ∧ x.packet = nd.packet ∧
        d'.recKept = d.recKept ++ (d.recNext, bs) :: rest)) ∧
    (¬failed → (∀ e ∈ edgesTo gr.nodes n, ∃ m, gr.nodes.look e.1 = some m ∧ (m.st = .done 0 ∨ (∀ k, m.st ≠ .done k) ∧ e.2 = true ∧
        ∃ l x, m.launch = some l ∧ d.launches.look l = some x ∧ x.trigged = true)) →
      d.dispatches = true → s.nodeHeld vd g n nd = false →
      (nd.packet.toNat % 16 = 1 → ∃ u nd' d', exec (.graphNodeDispatch vd g n) s = .next u ∧ u.node? vd g n = some nd' ∧
        nd'.st ≠ .waiting ∧ nd'.launch = some d.nextL ∧ u.vds.look vd = some d' ∧ d'.nextL = d.nextL + 1 ∧
        ∃ l, d'.launches.look d.nextL = some l ∧ l.node = some (g, n) ∧ l.queue = gr.queue ∧ l.packet = nd.packet) ∧
      (let p := nd.packet.toNat
       p % 16 = 2 → slice p 192 64 ≠ 0 → slice p 64 64 % 4 = 0 → slice p 128 64 % 4 = 0 →
        ∃ (u : State) (c : PktCopy), exec (.graphNodeDispatch vd g n) s = .next u ∧ u.node? vd g n = some { nd with st := .running } ∧
          u.pcopies = s.pcopies ++ [c] ∧ c.vd = vd ∧ c.src = slice p 64 64 ∧ c.dst = slice p 128 64 ∧ c.len = slice p 192 64 ∧
          c.node = some (g, n)))) ∧
  (∀ (s : State) (vd g n : Nat) (nd : Node), s.node? vd g n = some nd → nd.timing = true → nd.bin ≠ [] →
    ∃ u : State, exec (.coalescingTimerExpiry vd g n) s = .next u ∧ OnlyVd s.cpTick u vd ∧
      u.node? vd g n = some { nd with timing := false, due := true }) ∧
  (∀ (s : State) (vd g n l a : Nat) (d : VDev) (gr : Graph) (nd : Node) (x : Launch), s.vds.look vd = some d → d.graphs.look g = some gr →
    gr.nodes.look n = some nd → gr.done = false → nd.hasBin = true → nd.fill ≤ nd.bin.length ∨ nd.due = true ∧ nd.bin ≠ [] →
    nd.launch = some l → d.launches.look l = some x → x.st = .running → x.code = none → a ≤ d.cores.length → a ∉ nd.arrays →
    (∀ k < a, k ∈ nd.arrays) →
    let held := s.cpHeld vd (nd.pool + a * nd.fill * nd.rsize) ((nd.bin.take nd.fill).map (·.bytes)).flatten.length { w := true }
    (held = true → exec (.binTeamStart vd g n) s = .next s) ∧
    (held = false → ∃ u nd' x', exec (.binTeamStart vd g n) s = .next u ∧ u.node? vd g n = some nd' ∧ u.launch? vd l = some x' ∧
      x' = { x with count := x.count + 1, recs := x.recs.put x.count (a, min nd.fill nd.bin.length) } ∧
      nd' = { nd with bin := nd'.bin, excess := nd'.excess, timing := nd'.timing, due := false, starts := nd.starts + 1
                      arrays := nd.arrays ++ [a] } ∧
      nd.bin.take nd.fill ++ (nd'.bin ++ nd'.excess) = nd.bin ++ nd.excess ∧ (nd'.excess ≠ [] → nd'.bin.length = 2 * nd.fill)))

/-- A queued launch before which no launch of its queue is queued takes the next number at dispatch, and is judged: it is
done with 9 where its handle names no kernel or its warm slot is unbound, else with 6 (SHAPE) where its extent block
cannot be read, has a byte in 104 to 127 or does not evaluate to extents below 2^32 with such a count, a multiple of
the cluster, else with 5 (NOFIT) where the beams of a team do not fit, no cluster is whole or the save areas pass the
quota, else with 0 where the count is 0; otherwise it runs with that count, or with no team yet for a bin. Each
operation of an expression has the effect of R287. A draining launch with nothing in flight is done with the status
fixed for it, or 0. A deadline that expires for a dispatched or running launch fixes its status, 1, unless one is
fixed, and leaves no team to place; a watchdog where no beam is parked in spawn does so with 4 for those launches of
its queue, and ends its queued launches and its waiting graph nodes with 4; where one beam is parked, it takes the
spawn-overflow trap. A kept job record is written to its slot of the record ring, with WRITTEN behind it, once
CONSUMED leaves room, the device's banks are on, and the words are not lost to poison. A dispatch, or the end of a
launch, whose ports are out waits (log entry 141; R392). The model's choices: what counts against the quota (log entry
50), that launches in flight end though 64 records are kept (57), the number of a launch killed while queued (58),
that a record stays kept until its event writes it (95), also while the banks are off (147) or its words lost (47),
that a node that waits is Queued (164), and that a beam parked in spawn whose team has entered its pre-emption handler
is not parked (171). (11_execution.md, 13_scheduling.md, 16_isolation.md, R138, R250, R285, R287, R297, R299, R300,
R301, R365) -/
def Obligations.LaunchesRunAndEnd : Prop :=
  (∀ (s : State) (vd l : Nat) (d : VDev) (x : Launch) (q : Queue), s.vds.look vd = some d → d.launches.look l = some x →
    d.queues.look x.queue = some q → x.st = .queued → (∀ e ∈ d.launches, e.1 < l → e.2.queue = x.queue → e.2.st ≠ .queued) →
    d.dispatches = true → (s.dispatchHeld vd x.packet x.node = true → exec (.launchDispatch vd l) s = .next s) ∧
    (s.dispatchHeld vd x.packet x.node = false →
    ∃ u d' x', exec (.launchDispatch vd l) s = .next u ∧ u.vds.look vd = some d' ∧ d'.nextNum = d.nextNum + 1 ∧
      d'.launches.look l = some x' ∧ x'.number = some d.nextNum ∧ x'.packet = x.packet ∧
      x'.handle = slice x.packet.toNat 16 16 ∧
      let p := x.packet.toNat
      let block := (s.cpRead vd (slice p 64 64) 128).1
      let beams := slice p 32 5 + 1
      let ends (c : Nat) : Prop := x'.st = .done ∧ x'.code = some c
      let unbound : Prop := slice p 9 1 = 1 ∧ q.warm.look (slice p 10 4) = none
      (d.kernels.look (slice p 16 16) = none ∨ unbound → ends 9) ∧
      ∀ k, d.kernels.look (slice p 16 16) = some k → ¬unbound →
        (∀ c, block = .error c → ends 6) ∧
        ∀ bs, block = .ok bs → x'.stat = some (leNat ((bs.drop 96).take 8)) ∧
          let broken : Prop := leNat ((bs.drop 104).take 24) ≠ 0 ∨ x.bin = false ∧
            (d.extents q.ctx bs = none ∨ ∃ e, d.extents q.ctx bs = some e ∧ slice p 5 1 = 1 ∧ e.foldl (· * ·) 1 % (slice p 37 4 + 1) ≠ 0)
          let rows := (beams + 3) / 4
          let fits : Prop := rows ≤ 16 ∧ rows * k.decl.vregs ≤ 1024 ∧ rows * k.decl.mcap * k.decl.mcount ≤ 1024 ∧
            (slice p 5 1 = 1 → ∃ c ∈ d.clusters, ∀ i < 16, 16 * c + i ∉ s.mgmt.gone) ∧
            (k.decl.idem = true ∨ d.quotaHolds (d.cores.length * k.decl.areaSize beams) = true)
          (broken → ends 6) ∧ (¬broken → ¬fits → (k.decl.idem = true → d.quotaHolds 0 = true) → ends 5) ∧
          (¬broken → fits → (k.decl.idem = true → d.quotaHolds 0 = true) →
            (x.bin = true → x'.st = .running ∧ x'.count = 0 ∧ x'.code = x.code) ∧
            (x.bin = false → ∃ e, d.extents q.ctx bs = some e ∧ (e.foldl (· * ·) 1 = 0 → ends 0) ∧
              (e.foldl (· * ·) 1 ≠ 0 → x'.st = .running ∧ x'.ext = e ∧ x'.count = e.foldl (· * ·) 1 ∧ x'.code = x.code))))) ∧
  (∀ (d : VDev) (ctx : Nat) (bs : List Byte) (e : List Nat), d.extents ctx bs = some e → e.length = 3 ∧ e.foldl (· * ·) 1 < 2 ^ 32 ∧
    ∀ i n, e[i]? = some n → n < 2 ^ 32 ∧ shapeRun (d.shapeVar ctx)
      ((List.range 16).map (fun j => leNat ((((bs.drop (32 * i)).take 32).drop (2 * j)).take 2))) [] = some [n]) ∧
  (∀ (var : Nat → Option Nat) (op arg : Nat) (st : List Nat), st.length ≤ 8 → (∀ n ∈ st, n < 2 ^ 64) → arg < 2 ^ 12 →
    (shapeOp var 1 arg st = if arg < 32 ∧ st.length < 8 then (var arg).map (fun n => n % 2 ^ 64 :: st) else none) ∧
    (shapeOp var 2 arg st = if st.length < 8 then some (arg :: st) else none) ∧
    (3 ≤ op → (∀ b a rest, st = b :: a :: rest → shapeOp var op arg st = (shapeBinary op a b).map (fun n => n :: rest)) ∧
      (st.length < 2 → shapeOp var op arg st = none)) ∧
    ∀ w ws, shapeRun var (w :: ws) st = (if w / 2 ^ 12 = 0 then some st else
      (shapeOp var (w / 2 ^ 12) (w % 2 ^ 12) st).bind (shapeRun var ws))) ∧
  (∀ (s : State) (vd l : Nat) (x : Launch), s.launch? vd l = some x → x.st = .draining → s.inFlight vd l = false →
    let held : Prop := s.statHeld vd (x.stat.getD 0) = true ∨ s.graphHeld vd x.node = true
    (held → exec (.launchDone vd l) s = .next s) ∧
    (¬held → ∃ u x', exec (.launchDone vd l) s = .next u ∧ u.launch? vd l = some x' ∧
      x' = { x with st := .done, code := some (x.code.getD 0) })) ∧
  (∀ (s : State) (vd l : Nat) (x : Launch), s.launch? vd l = some x → x.dline ≠ 0 → x.st = .dispatched ∨ x.st = .running →
    ∃ u x', exec (.deadlineExpiry vd l) s = .next u ∧ u.launch? vd l = some x' ∧ x'.code = some (x.code.getD 1) ∧ x'.next = x.count ∧
      x'.again = [] ∧ x'.dline = 0) ∧
  (∀ (s : State) (vd q : Nat) (d : VDev) (y : Queue), s.vds.look vd = some d → d.queues.look q = some y → y.wdog ≠ 0 →
    (s.parkedOf vd q = [] → ∃ u : State, exec (.watchdogExpiry vd q) s = .next u ∧ ∀ l x, d.launches.look l = some x → x.queue = q →
      (x.st = .queued → ∃ x', u.launch? vd l = some x' ∧ x'.st = .done ∧ x'.code = some 4) ∧
      (x.st = .dispatched ∨ x.st = .running → ∃ x', u.launch? vd l = some x' ∧ x'.next = x'.count ∧ x'.again = [] ∧
        (x.code = none → x'.code = some 4) ∧ (l < d.nextL → x'.code = some (x.code.getD 4) ∧ x'.count = x.count))) ∧
    (s.parkedOf vd q = [] → ∀ g n nd, (g, n, nd) ∈ d.queuedNodes q → s.node? vd g n = some nd →
      ∃ (u : State) (nd' : Node), exec (.watchdogExpiry vd q) s = .next u ∧ u.node? vd g n = some nd' ∧ nd'.st = .done 4) ∧
    (∀ core slot lane b, s.parkedOf vd q = [(core, slot, lane)] → s.beam? core slot = some b →
      (∃ l x, d.launches.look l = some x ∧ x.queue = q ∧ x.st ≠ .done) →
      exec (.watchdogExpiry vd q) s = .next ((s.cpTick.setBeam core slot { b with sleep := .ready, pend := none }).takeTrap core slot
        { cause := 0x0D, lane := lane } b.flow.pc none))) ∧
  (∀ (s : State) (vd seq : Nat) (d : VDev) (bytes : List Byte) (rest : List (Nat × List Byte)), s.vds.look vd = some d →
    d.recKept = (seq, bytes) :: rest → d.recBase ≠ 0 → (3 ≤ d.stage ∨ s.linePoisoned d.recBase 16 = true → exec (.jobRecordFlush vd) s = .next s) ∧
    (d.stage < 3 → s.linePoisoned d.recBase 16 = false → seq < leNat (Memory.readN s.mem (d.recBase + 8) 8) + 2 ^ d.recLog → (∀ a, s.shut a = false) →
    let slot := d.recBase + 32768 * (1 + seq % 2 ^ d.recLog)
    ∃ u : State, exec (.jobRecordFlush vd) s = .next u ∧ u.vds.look vd = some { d with recKept := rest } ∧
      Memory.readN u.mem slot bytes.length = bytes ∧ leNat (Memory.readN u.mem d.recBase 8) = (seq + 1) % 2 ^ 64 ∧
      ∀ b, (b < d.recBase ∨ d.recBase + 8 ≤ b) → (b < slot ∨ slot + bytes.length ≤ b) → Memory.read u.mem b = Memory.read s.mem b))

/-- A placeable pending team of a launch that is no cluster launch, at the turn of its queue and on a free core that is
not kept for a higher level, is placed: the core's team is it with the core's next generation tag and zero counters,
and each beam stands in a slot of its quadrant, all 32 threads at the kernel's entry, with no v register written, so
that each reads as a launch marker, or as zero under NOINIT, zero predicates, and the arguments from c5 up. Those are
the packet's, or under WARM, for words 7 to 10, the buffers of its slot, which swap as the launch ends with status 0;
an unbound slot ends it with 9. The teams of a cluster stand on the cores of a free one by position, and the others
stay empty. A saved team comes back with its counters, a scratchpad of zeros, and each beam in the resume trap, at its
saved %tpc, with zero registers and its block's addresses. Where the queue at the head of the turn order has no
deficit left, it goes to the back with a new quantum instead. A slice that expires while another queue of no lower
priority starves, or a pre-emption of the first of the victims for a waiting team of a higher level, takes the team
from residence; an idempotent kernel's team leaves the core at once. A discarded team whose copies and writes are done
is pending before the others; a saved one leaves its core with its counters kept; a save that misses its bound ends
its launch with SAVEFAIL. A stable regulator releases held teams. The model's choices: which team a slice takes (log
entry 64), the save area (91), the zeros (166), the point of an empty die (92), the slots of the beams (99), the empty
positions of a cluster (107), the cores kept for a higher level (108), and for an earlier cluster launch of the queue
(181), the places in the turn order (155) and how many victims are taken at once (116). (11_execution.md,
13_scheduling.md, 17_recovery.md, R235, R236, R237, R286, R292, R293, R294, R295, R296) -/
def Obligations.TeamsPlacedAndPreempted : Prop :=
  let stands (s u : State) (v n i core : Nat) (l : Launch) (k : Kernel) (tm : Team) : Prop :=
    (u.core core).team = some tm ∧ tm.vd = v ∧ tm.launch = n ∧
      tm.index = i ∧ tm.gen = (s.core core).teamGen + 1 ∧ tm.decl = k.decl ∧ tm.beams = l.beams ∧ tm.spad = [] ∧
      (u.core core).counters = [] ∧ (∃ l', u.launch? v n = some l' ∧ l'.teams.look i = some (.resident core)) ∧
      ∀ b < l.beams, ∃ slot m, slot / 16 = b % 4 ∧ u.beam? core slot = some m ∧ m.idx = b ∧ m.resp = none ∧
        m.flow = Flow.start (BitVec.allOnes 32) k.entry ∧ m.decl = k.decl ∧ m.v = [] ∧ m.planted = !k.decl.noinit ∧ m.m = [] ∧ m.p = [] ∧ m.q = [] ∧
        m.gen = (s.core core).beamGens.getD slot 0 + 1 ∧
        ∀ j w, l.args[j]? = some w → 5 + j < k.decl.cregs → (m.creg (5 + j)).val = w
  (∀ (s : State) (v n i core : Nat) (d : VDev) (l : Launch) (k : Kernel) (order : List Nat), s.vds.look v = some d →
    d.launches.look n = some l → d.kernels.look l.handle = some k → d.power = .awake ∨ d.power = .waking ∧ d.stage < 3 →
    (l.queue, n, i) ∈ s.ready v d → s.freeFor d l k.decl i core = true → s.awaited v d (d.prio l.queue) core = false →
    d.turnOf (s.placeables v d) (s.ready v d) l.queue = .go order →
    l.clustered = false → l.teams.look i = none →
    ∃ u tm l', exec (.teamPlace v n i core) s = .next u ∧ u.mem = s.mem ∧ stands s u v n i core l k tm ∧ u.launch? v n = some l' ∧
      l'.placed = l.placed ++ [i]) ∧
  (∀ (s : State) (v n i core : Nat) (d : VDev) (l : Launch) (k : Kernel) (order : List Nat), s.vds.look v = some d →
    d.launches.look n = some l → d.kernels.look l.handle = some k → d.power = .awake ∨ d.power = .waking ∧ d.stage < 3 →
    (l.queue, n, i) ∈ s.ready v d → s.freeFor d l k.decl i core = true → (∀ c ∈ l.needs core, s.awaited v d (d.prio l.queue) c = false) →
    d.turnOf (s.placeables v d) (s.ready v d) l.queue = .go order → l.clustered = true →
    let ctas : Nat := slice l.packet.toNat 37 4 + 1
    ∃ u : State, exec (.teamPlace v n i core) s = .next u ∧ u.mem = s.mem ∧ core % 16 = 0 ∧
      (∀ p, ctas ≤ p → p < 16 → (u.core (core + p)).team = none) ∧
      ∀ p < ctas, l.teams.look (i / ctas * ctas + p) = none → ∃ tm, stands s u v n (i / ctas * ctas + p) (core + p) l k tm ∧
        tm.position = some p ∧ tm.cluster = i / ctas) ∧
  (∀ (s : State) (v n i core : Nat) (d : VDev) (l : Launch) (k : Kernel) (order : List Nat) (x : SavedTeam), s.vds.look v = some d →
    d.launches.look n = some l → d.kernels.look l.handle = some k → d.power = .awake ∨ d.power = .waking ∧ d.stage < 3 →
    (l.queue, n, i) ∈ s.ready v d → s.freeFor d l k.decl i core = true → s.awaited v d (d.prio l.queue) core = false →
    d.turnOf (s.placeables v d) (s.ready v d) l.queue = .go order →
    l.clustered = false → l.teams.look i = some (.saved x) → x.team.vd = v → d.overlays.look 255 ≠ none →
    x.beams.Pairwise (fun a b => a.1 ≠ b.1) → (∀ e ∈ x.beams, e.1 < l.beams) →
    ∃ u tm l', exec (.teamPlace v n i core) s = .next u ∧ u.mem = s.mem ∧ (u.core core).team = some tm ∧
      tm = { x.team with gen := (s.core core).teamGen + 1, stamp := tm.stamp, entry := tm.entry, spad := [], spadPz := [] } ∧
      (u.core core).counters = x.counters ∧ u.launch? v n = some l' ∧ l'.teams.look i = some (.resident core) ∧
      ∀ e ∈ x.beams,
        let frozen : Flow := match e.2.handler with | some k => k.frozen | none => e.2.flow
        let area : Nat := x.team.area.getD 0
        let block : Nat := area + e.2.decl.blockAt e.2.idx
        ∃ slot m hd, slot / 16 = e.1 % 4 ∧ u.beam? core slot = some m ∧ m.idx = e.2.idx ∧ m.resp = none ∧ m.decl = e.2.decl ∧
          m.gen = (s.core core).beamGens.getD slot 0 + 1 ∧ m.tcause = 0x12 ∧ m.tpc = e.2.tpc ∧ m.taddr = 0 ∧ m.sleep = .ready ∧
          m.handler = some hd ∧ hd.cause = 0x12 ∧ hd.frozen = frozen ∧ hd.nas = none ∧
          m.flow.paths = [{ mask := match frozen.run with | some p => p.mask | none => 0, pc := 0xFF00_0000, fmt := 0x6B54_0000
                            part := 0x20, top := none, st := .running }] ∧
          m.v = [] ∧ m.m = [] ∧ m.p = [] ∧ m.q = [] ∧ m.emask = 0 ∧ (∀ j < 48, m.creg j = {}) ∧
          (m.creg 58).val = BitVec.ofNat 32 e.2.decl.spad ∧ (m.creg 60).val = BitVec.ofNat 32 block ∧
          (m.creg 61).val = BitVec.ofNat 32 (block / 2 ^ 32) ∧ (m.creg 62).val = BitVec.ofNat 32 area ∧
          (m.creg 63).val = BitVec.ofNat 32 (area / 2 ^ 32)) ∧
  (∀ (s : State) (vd l : Nat) (d : VDev) (x : Launch) (q : Queue), s.vds.look vd = some d → d.launches.look l = some x →
    d.queues.look x.queue = some q → x.st = .queued → (∀ e ∈ d.launches, e.1 < l → e.2.queue = x.queue → e.2.st ≠ .queued) →
    d.dispatches = true → s.dispatchHeld vd x.packet x.node = false →
    let p : Nat := x.packet.toNat
    let warm : Option Warm := if slice p 9 1 = 1 then q.warm.look (slice p 10 4) else none
    ∃ u x', exec (.launchDispatch vd l) s = .next u ∧ u.launch? vd l = some x' ∧
      (slice p 9 1 = 1 → warm = none → x'.st = .done ∧ x'.code = some 9) ∧
      (x'.st = .running → ∀ j < 11, x'.args[j]? = some (BitVec.ofNat 32 (match warm with
        | none => slice p (128 + 32 * j) 32
        | some w =>
          if j < 7 then slice p (128 + 32 * j) 32
          else (if w.phase = decide (j < 9) then w.bufA else w.bufB) / 2 ^ (32 * ((j + 1) % 2)) % 2 ^ 32)))) ∧
  (∀ (s : State) (vd l : Nat) (x : Launch) (q : Queue) (w : Warm), s.launch? vd l = some x → x.st = .draining → s.inFlight vd l = false →
    s.statHeld vd (x.stat.getD 0) = false → s.graphHeld vd x.node = false → s.queue? vd x.queue = some q →
    q.warm.look (slice x.packet.toNat 10 4) = some w → ∃ u q', exec (.launchDone vd l) s = .next u ∧ u.queue? vd x.queue = some q' ∧
      q'.warm.look (slice x.packet.toNat 10 4) = some { w with phase := if slice x.packet.toNat 9 1 = 1 ∧ x.code.getD 0 = 0 then !w.phase else w.phase }) ∧
  (∀ (s : State) (v n i core q : Nat) (d : VDev) (l : Launch) (k : Kernel) (order : List Nat) (x : Queue), s.vds.look v = some d →
    d.launches.look n = some l → d.kernels.look l.handle = some k → d.power = .awake ∨ d.power = .waking ∧ d.stage < 3 →
    (l.queue, n, i) ∈ s.ready v d → s.freeFor d l k.decl i core = true → (∀ c ∈ l.needs core, s.awaited v d (d.prio l.queue) c = false) →
    d.turnOf (s.placeables v d) (s.ready v d) l.queue = .rotate order q →
    d.queues.look q = some x → ∃ (u : State) (d' : VDev), exec (.teamPlace v n i core) s = .next u ∧ OnlyVd s u v ∧ u.vds.look v = some d' ∧
      d'.turn = order ∧ d'.queues.look q = some { x with deficit := x.deficit + 1024 * x.quant }) ∧
  (∀ (s : State) (core v q prio : Nat) (d : VDev) (x : Queue) (t : Team), (s.core core).team = some t → t.position = none →
    s.levelAt core = some (v, q, prio) → s.vds.look v = some d → d.queues.look q = some x → s.residentAt core = true →
    ∀ i, (i = .sliceExpiry core ∧ x.slice ≠ 0 ∧ (∃ e ∈ s.starved v d, e.1 ≠ q ∧ d.prio e.1 ≤ prio) ∨
        i = .preempt core ∧ s.victim v d prio core = true ∧ ∃ key, s.victimKey core = some key ∧ ∀ c ∈ s.coresOf d,
          s.residentAt c = true → ∀ a b p y, s.levelAt c = some (a, b, p) → s.victim v d p c = true → s.victimKey c = some y →
            victimBefore y key = false) →
      ∃ (u : State) (l' : Launch), exec i s = .next u ∧ u.launch? t.vd t.launch = some l' ∧ l'.teams.look t.index ≠ some (.resident core) ∧
        (t.decl.idem = true → (u.core core).team = none ∧ l'.teams.look t.index = some (.discarding core) ∧
          (∀ slot b, u.beam? core slot = some b → b.resp ≠ none) ∧ u.mem = s.mem)) ∧
  (∀ (s : State) (v n i core : Nat) (l : Launch), s.launch? v n = some l → l.teams.look i = some (.discarding core) →
    (s.core core).kept = [] → s.leftovers core v n = false → ∃ (u : State) (l' : Launch), exec (.discardComplete v n i) s = .next u ∧ OnlyVd s u v ∧ u.launch? v n = some l' ∧
      l'.teams.look i = none ∧ l'.again = i :: l.again) ∧
  (∀ (s : State) (v n i core : Nat) (l : Launch) (t : Team), s.launch? v n = some l → l.teams.look i = some (.saving core) →
    (s.core core).team = some t → t.vd = v → t.launch = n → t.index = i → t.position = none → s.saveDone core = true →
    ∃ u l' x, exec (.saveComplete v n i) s = .next u ∧ u.mem = s.mem ∧ (u.core core).team = none ∧ u.launch? v n = some l' ∧
      l'.teams.look i = some (.saved x) ∧ x.team = t ∧ x.counters = (s.core core).counters) ∧
  (∀ (s : State) (v n i core : Nat) (l : Launch), s.launch? v n = some l → l.teams.look i = some (.saving core) → s.asking core = false →
    s.farCopies core = false → ∃ (u : State) (l' : Launch), exec (.saveTimeout v n i) s = .next u ∧ u.launch? v n = some l' ∧ l'.code = some (l.code.getD 8)) ∧
  (∀ (s : State) (die : Nat) (g : Gov), s.gov.look die = some g → ∃ u : State, exec (.regulatorStable die) s = .next u ∧
    u = { s with gov := u.gov, fresh := u.fresh } ∧ ∃ cyc, u.gov.look die = some { g with stable := true, held := [], cyc := cyc })
/-! ### Power, ports and management -/

/-- An awake idle virtual device whose threshold is set, and no wake write to which has been performed, starts to
collapse; at the end its power is collapsed, and from class 1 on its cores' slots are empty, their cycle counts 0 and
no translation of it is cached; from class 2 on its cores' directories are empty, in class 2 they stand at DIRSAVE in
core order, and in class 3 the eclipse area holds what the segments hold. A port that is out holds the copies into and
out of the eclipse area (log entry 141; R392). A recognised wake write clears its bit; its device is waking at once,
with notices to its dies, and the steps that were done are undone: the directories come from DIRSAVE, but for entries
in poisoned lines, which are free, and the segments from the eclipse area. While a port holds that copy nothing is
undone and the wake does not complete; it is undone before it does. A notice lets its agent count; with every notice
received a wake completes, with a queue that waits for its mapping still to be served first, and counts on where a
launch waits for its first team. Cycles beyond the bound of the class while the die of the first team placed, until
that team has issued, or the lead die, counts are reported once, with the class, the cycles and the part that failed.
A lowered operating point becomes the limit of its die. A retired core that nothing uses is taken over by a spare of
its die, keeping its directory and tags only; where no spare is left the position stays empty, and with a device's
last whole cluster the cluster launches that run are fixed with 5 (NOFIT) and place no team more. The model's choices:
COUNT (log entry 65) and ADDR (126) of the wake fault, a step of a collapse as one event and free entries for poisoned
lines of DIRSAVE (66), no collapse while a directory move is in flight (157), the limit of a die (74), what a spare
keeps (97), when and on which die a wake is counted (136), and that teams of such launches end (182). (15_collapse.md,
17_recovery.md, R26, R331, R332, R333, R334, R335, R336, R340, R389) -/
def Obligations.PowerAndCores : Prop :=
  let Undone (s u : State) (d : VDev) : Prop :=
    let saved := slice d.descr.toNat 464 48
    (d.stage ≤ 3 → u.mem = s.mem) ∧ (d.stage ≤ 2 → ∀ n, u.core n = s.core n) ∧
    (d.stage = 3 → ∀ k n, d.cores[k]? = some n → ∀ i < 256,
      let x := leNat (Memory.readN s.mem (saved + 8192 * k + 32 * i) 32)
      let e := (u.core n).entry i
      (s.linePoisoned (saved + 8192 * k + 32 * i) 32 = true → e.state = 0) ∧
      (s.linePoisoned (saved + 8192 * k + 32 * i) 32 = false → e.key.toNat = slice x 0 64 ∧ e.tag.toNat = slice x 64 32 ∧
        e.len.toNat = slice x 96 32 ∧ e.addr.toNat = slice x 128 56 ∧ e.state = slice x 184 3 ∧ e.answered.toNat = slice x 192 64)) ∧
    (d.stage = 4 → s.MemoryOk → 2 ^ 47 ≤ slice d.descr.toNat 656 48 → saved + 131072 * d.clusters.length ≤ 2 ^ 47 →
      ∀ i g, d.segments[i]? = some g → ∀ o < 2 ^ 30,
        Memory.read u.mem (g * 2 ^ 30 + o) = Memory.read s.mem (slice d.descr.toNat 656 48 + i * 2 ^ 30 + o))
  (∀ (s : State) (v : Nat) (d : VDev), s.vds.look v = some d → d.power = .awake → slice d.descr.toNat 544 32 ≠ 0 → s.idle v d = true →
    ((∃ e ∈ s.wakeBits, e.2 = (v, true)) → exec (.idleThreshold v) s = .next s) ∧
    ((∀ e ∈ s.wakeBits, e.2 ≠ (v, true)) → ∃ u : State, exec (.idleThreshold v) s = .next u ∧ OnlyVd (s.govTick (d.dies.headD 0)) u v ∧
      u.vds.look v = some { d with power := .collapsing, stage := 0 })) ∧
  (∀ (s : State) (v : Nat) (d : VDev), s.vds.look v = some d → d.power = .collapsing → d.stage = 0 → (∀ a, s.shut a = false) →
    (s.eclipseHeld d = true → exec (.collapseComplete v) s = .next s) ∧
    (s.eclipseHeld d = false →
    let cls := slice d.descr.toNat 576 2
    let saved := slice d.descr.toNat 464 48
    ∃ u : State, exec (.collapseComplete v) s = .next u ∧ u.vds.look v = some { d with power := .collapsed, stage := cls + 1 } ∧
      (cls < 2 → u.mem = s.mem ∧ ∀ n ∈ d.cores, (u.core n).dir = (s.core n).dir) ∧
      (1 ≤ cls → ∀ n ∈ d.cores, (u.core n).slots = [] ∧ (u.core n).cyc = 0 ∧ (∀ t ∈ (u.core n).tlb, t.vd ≠ v) ∧
        ∀ die l, u.dtu.look die = some l → ∀ t ∈ l, t.vd ≠ v) ∧
      (2 ≤ cls → ∀ n ∈ d.cores, (u.core n).dir = []) ∧
      (cls = 2 → ∀ k n, d.cores[k]? = some n → ∀ i < 256, ∀ e, e = (s.core n).entry i → e.state < 256 →
        leNat (Memory.readN u.mem (saved + 8192 * k + 32 * i) 32) = e.key.toNat + 2 ^ 64 * e.tag.toNat + 2 ^ 96 * e.len.toNat +
          2 ^ 128 * e.addr.toNat + 2 ^ 184 * e.state + 2 ^ 192 * e.answered.toNat) ∧
      (cls = 3 → s.MemoryOk → 2 ^ 47 ≤ slice d.descr.toNat 656 48 → ∀ i g, d.segments[i]? = some g → ∀ o < 2 ^ 30,
        Memory.read u.mem (slice d.descr.toNat 656 48 + i * 2 ^ 30 + o) = Memory.read u.mem (g * 2 ^ 30 + o)))) ∧
  (∀ (s : State) (line v : Nat) (d : VDev), s.wakeBits.look line = some (v, true) → s.vds.look v = some d →
    d.power = .collapsed ∨ d.power = .collapsing →
    let waking : VDev := { d with power := .waking, notices := d.dies, counting := [], faulted := false, woke := d.dies, wokeBy := none, served := false }
    (4 ≤ d.stage → s.eclipseHeld d = true → ∃ u : State, exec (.wakeWrite line) s = .next u ∧
      OnlyVd { s with wakeBits := s.wakeBits.put line (v, false) } u v ∧ u.vds.look v = some waking) ∧
    ((4 ≤ d.stage → s.eclipseHeld d = false ∧ ∀ a, s.shut a = false) → ∃ u : State, exec (.wakeWrite line) s = .next u ∧
      u.wakeBits.look line = some (v, false) ∧ u.vds.look v = some { waking with stage := 0 } ∧ Undone s u d)) ∧
  (∀ (s : State) (v die : Nat) (d : VDev), s.vds.look v = some d → die ∈ d.notices → ∃ u : State, exec (.wakeNotice v die) s = .next u ∧
    OnlyVd s u v ∧ u.vds.look v = some { d with notices := d.notices.filter (fun n => n != die), counting := d.counting ++ [die] }) ∧
  (∀ (s : State) (v : Nat) (d : VDev), s.vds.look v = some d → d.power = .waking →
    (4 ≤ d.stage → s.eclipseHeld d = true → exec (.wakeComplete v) s = .next s) ∧
    ((4 ≤ d.stage → s.eclipseHeld d = false ∧ ∀ a, s.shut a = false) → ∃ (u : State) (d' : VDev), exec (.wakeComplete v) s = .next u ∧
      u.vds.look v = some d' ∧ d'.stage = 0 ∧ d'.power = (if d.notices = [] then .awake else .waking) ∧ Undone s u d) ∧
    (d.stage = 0 → d.notices ≠ [] → exec (.wakeComplete v) s = .next s) ∧
    (d.stage = 0 → d.notices = [] → ∃ (u : State) (c : List Nat), exec (.wakeComplete v) s = .next u ∧ OnlyVd s u v ∧
      u.vds.look v = some { d with power := .awake, counting := c, served := d.served || !decide (∃ q ∈ d.queues, q.2.thread = none ∧
        q.2.status = 0 ∧ ∃ t ∈ s.tail v q.2, t ≠ q.2.head) } ∧ (d.wokeBy ≠ none → c = d.counting) ∧
      (d.wokeBy = none → (∀ l ∈ d.launches, l.2.candidates = []) → c = []))) ∧
  (∀ (s : State) (v cycles : Nat) (d : VDev), s.vds.look v = some d → d.power = .waking ∨ d.power = .awake →
    (d.wokeBy = none ∧ d.dies.headD 0 ∈ d.counting ∨ ∃ f x, d.wokeBy = some f ∧ f.issued = false ∧
      f.die ∈ d.counting ∧ d.launches.look f.launch = some x ∧ x.st ≠ .done) → d.faulted = false →
    [17500, 262500, 3500000, 52500000].getD (slice d.descr.toNat 576 2) 0 < cycles → d.errq.length < 256 →
    ∃ (u : State) (part : Nat), exec (.wakeFault v cycles) s = .next u ∧ u.vds.look v = some { d with
      faulted := true, errq := d.errq ++ [errEntry 0x04 (slice d.descr.toNat 576 2) 0 cycles nobody nobody 0 part] }) ∧
  (∀ (s : State) (die point : Nat), die < 8 → point < 8 → s.pointOf die < point → ∃ u g, exec (.operatingPointLower die point) s = .next u ∧
    u = { s with gov := u.gov } ∧ u.gov.look die = some g ∧ g.limit = point ∧ g.point = point) ∧
  (∀ (s : State) (core : Nat), s.mayRetire core = true → 0 < s.mgmt.spares.getD (dieOf core) 16 →
    ∃ u : State, exec (.coreRetirement core) s = .next u ∧ u.mgmt.spares.getD (dieOf core) 16 = s.mgmt.spares.getD (dieOf core) 16 - 1 ∧
      u.core core = { dir := (s.core core).dir, beamGens := (s.core core).beamGens, teamGen := (s.core core).teamGen }) ∧
  (∀ (s : State) (core v : Nat) (d : VDev), s.mayRetire core = true → s.mgmt.spares.getD (dieOf core) 16 = 0 →
    s.vds.find? (fun e => e.2.cores.contains core) = some (v, d) → s.vds.look v = some d → d.stage < 3 →
    ∃ u : State, exec (.coreRetirement core) s = .next u ∧ u.mgmt.gone = s.mgmt.gone ++ [core] ∧ (u.core core).dir = [] ∧
      ((∀ k ∈ d.clusters, ∃ i < 16, 16 * k + i ∈ u.mgmt.gone) → ∀ l x, d.launches.look l = some x → l < d.nextL →
        slice x.packet.toNat 5 1 = 1 → x.st = .dispatched ∨ x.st = .running →
        ∃ x', u.launch? v l = some x' ∧ x'.code = some (x.code.getD 5) ∧ x'.next = x.count ∧ x'.again = []))

/-- A secure port goes out for re-calibration where no other port of its edge die is; a calibrating port that misses its
bound has failed; either is secure again once re-established. An integrity failure of a CXL port fails it, with no
entry written. When a port fails that was out, whatever a copy in has read through it by then is read again as its
lines stand now that they are lost, poisoned ones marked, which is the model's choice (log entry 134). A key refresh
counts one for its port. A device whose range is aligned, in the pooled window and apart from the others joins. A
verified key agreement makes an association with its host's digest and salt, or with the same host replaces the salt
and restarts its replay window. A packet with a bad tag or a number seen or too old is dropped and counted; a fresh
one is taken, and acts, or waits while a port holds what it does (log entries 141 and 165; R392): a management request
is queued as the event of its operation; a row of one line is written whole where the host may write there, and
otherwise counted in an entry of type 0x05 with nothing written; an atomic of another device forms its new value at a
word that it may change, and is counted likewise otherwise. The model's choices: an unbound association is the
management path (log entry 62), what leaves the package is not recorded (73), failures and packets come from outside,
as the agenda names them (102), an integrity failure writes no entry (68), and a refused remote atomic enters one of
type 0x05 (138). (10_memory_isa.md, 16_isolation.md, 17_recovery.md, R218, R347, R353, R354, R355, R390, R392, R393) -/
def Obligations.PortsAndAssociations : Prop :=
  (∀ (s : State) (p : Port), portOk p = true →
    let key := if p.cxl then p.index else 16 + p.index
    let st := s.mgmt.ports.getD key .secure
    (st = .secure → (∀ e ∈ s.mgmt.ports, e.2 = .calibrating → portDie e.1 ≠ portDie key) →
      ∃ u : State, exec (.portRecalibrate p) s = .next u ∧ u.mgmt.ports.look key = some .calibrating) ∧
    (st = .calibrating → ∃ u : State, exec (.portFail p) s = .next u ∧ u.mgmt.ports.look key = some .failed) ∧
    (st ≠ .secure → ∃ u : State, exec (.portReestablished p) s = .next u ∧ OnlyMgmt s u ∧ u.mgmt.ports.look key = some .secure)) ∧
  (∀ (s : State) (port : Nat), port < 16 → ∃ u : State, exec (.ideKeyRefresh port) s = .next u ∧ OnlyMgmt s u ∧
    u.mgmt.ideKeys.look port = some (s.mgmt.ideKeys.getD port 0 + 1)) ∧
  (∀ (s : State) (port : Nat), port < 16 → ∃ u : State, exec (.cxlIntegrityFailure port) s = .next u ∧
    u.mgmt.ports.look port = some .failed ∧ (s.mgmt.ports.getD port .secure ≠ .calibrating ∨ s.copies = [] → OnlyMgmt s u)) ∧
  (∀ (s t : State) (key : Nat), key < 24 → s.mgmt.ports.getD key .secure = .calibrating →
    t = { s with mgmt := { s.mgmt with ports := s.mgmt.ports.put key .failed } } →
    let lost (a : Nat) : Bool := t.shut a && !s.shut a
    let u := s.copies.foldl (fun v c => v.loseReads lost c) t
    (key < 16 → exec (.cxlIntegrityFailure key) s = .next u) ∧
    (∀ p : Port, portOk p = true → portKey p = key → exec (.portFail p) s = .next (u.notePort 0x08 key))) ∧
  (∀ (s : State) (lost : Nat → Bool) (c : Copy),
    let v := s.loseReads lost c
    (c.out = true ∨ c.kind = .near → v = s) ∧
    (c.out = false → c.kind ≠ .near → v.copies = s.copies.map (fun k => if k.id = c.id then { k with rows := k.rows.map (fun r =>
      { r with st := r.st.mapPieces (fun p => if p.dev = 0 ∧ lost p.addr = true then
          { p with data := v.readBytes p.addr p.data.length, pz := v.linePoisoned p.addr p.data.length } else p) }) } else k))) ∧
  (∀ (s : State) (port base gib : Nat), port < 16 → 2 ^ 47 ≤ base → base + gib * 2 ^ 30 ≤ 2 ^ 48 → base % 2 ^ 30 = 0 → gib ≠ 0 →
    (∀ d ∈ s.mgmt.devices, base + gib * 2 ^ 30 ≤ d.2.1 ∨ d.2.1 + d.2.2 * 2 ^ 30 ≤ base) →
    ∃ u : State, exec (.cxlDeviceAdd port base gib) s = .next u ∧ u = { s with mgmt := { s.mgmt with
      devices := s.mgmt.devices ++ [(port, base, gib)] } }) ∧
  (∀ (s : State) (n : Nat) (host : BitVec 512) (salt : BitVec 32),
    (s.assoc? n = none → ∃ u : State, exec (.associationKeyAgreement n host salt true) s = .next u ∧ OnlyMgmt s u ∧
      u.assoc? n = some { host := host, salt := salt }) ∧
    (∀ a, s.assoc? n = some a → a.host = host → ∃ u : State, exec (.associationKeyAgreement n host salt true) s = .next u ∧ OnlyMgmt s u ∧
      u.assoc? n = some { a with salt := salt, top := 0, seen := [] })) ∧
  (∀ (s : State) (k : Packet) (a : Assoc), s.assoc? k.assoc = some a → k ∈ s.mgmt.packets →
    (s.packetHeld k a.bound = true → exec (.associationPacketReceive k) s = .next s) ∧
    (s.packetHeld k a.bound = false → exec (.associationPacketReceive k) s = .next ((s.holdPacket k false).actOn k a.bound))) ∧
  (∀ (s : State) (k : Packet) (a : Assoc), s.assoc? k.assoc = some a → k ∉ s.mgmt.packets → k.port < 8 →
    s.mgmt.ports.getD (16 + k.port) .secure = .secure →
    let old : Prop := k.number ∈ a.seen ∨ k.number + 1024 ≤ a.top
    (k.tagOk = false ∨ old → ∃ u : State, exec (.associationPacketReceive k) s = .next u ∧ OnlyMgmt s u ∧
      u.assoc? k.assoc = some { a with dropped := a.dropped + 1 }) ∧
    (k.tagOk = true → ¬old →
      (∃ u a', exec (.associationPacketReceive k) s = .next u ∧ u.assoc? k.assoc = some a' ∧ k.number ∈ a'.seen ∧
        a'.top = max a.top k.number) ∧
      (s.packetHeld k a.bound = true → ∃ u : State, exec (.associationPacketReceive k) s = .next u ∧ OnlyMgmt s u ∧
        u.mgmt.packets = s.mgmt.packets ++ [k]) ∧
      (∀ header body i, k.payload = .mgmt header body → a.bound.managed = true →
        requestEvent { assoc := k.assoc, header := header, body := body } = some i →
        ∃ u : State, exec (.associationPacketReceive k) s = .next u ∧ u.agenda = s.agenda ++ [.event i] ∧ u.mem = s.mem ∧ u.vds = s.vds) ∧
      (∀ v va bytes d, k.payload = .remote (.rows [(va, bytes)]) → a.bound = .vdev v → s.packetHeld k a.bound = false → s.vds.look v = some d → bytes ≠ [] →
        va % 64 + bytes.length ≤ 64 →
        (∀ pa, s.hostPlace v va bytes.length { w := true } = some pa → ∃ u : State, exec (.associationPacketReceive k) s = .next u ∧
          SameOutside s u pa bytes.length ∧ Memory.readN u.mem pa bytes.length = bytes) ∧
        (s.hostPlace v va bytes.length { w := true } = none → d.errq.length < 256 → ∃ (u : State) (d' : VDev), exec (.associationPacketReceive k) s = .next u ∧
          u.mem = s.mem ∧ u.vds.look v = some d' ∧ d'.errq = d.errq ++ [errEntry 0x05 0 0 1 nobody nobody 0 0])) ∧
      (∀ v op ty va val cmp d, k.payload = .remote (.atomic op ty va val cmp) → a.bound = .vdev v → s.packetHeld k a.bound = false →
        s.vds.look v = some d →
        ty ∈ [Ty.i32, .n32, .i64, .n64, .f32, .f64] → (ty.isFloat = true → op ∉ [AtomOp.min, .max, .and, .or, .xor]) →
        (ty.isFloat = false → op ∉ [AtomOp.fmin, .fmax]) →
        let n := ty.width / 8
        let place := s.hostPlace v va n { w := true, a := true }
        (∀ pa, va % n = 0 → place = some pa → s.linePoisoned pa n = false →
          ∃ u : State, exec (.associationPacketReceive k) s = .next u ∧ SameOutside s u pa n ∧ leNat (Memory.readN u.mem pa n) =
            atomResult ty op (leNat (Memory.readN s.mem pa n)) (val.toNat % 2 ^ (8 * n)) (cmp.toNat % 2 ^ (8 * n))) ∧
        (va % n ≠ 0 ∨ place = none ∨ (∃ pa, place = some pa ∧ s.linePoisoned pa n = true) → d.errq.length < 256 →
          ∃ (u : State) (d' : VDev), exec (.associationPacketReceive k) s = .next u ∧ u.mem = s.mem ∧ u.vds.look v = some d' ∧
            d'.errq = d.errq ++ [errEntry 0x05 0 0 1 nobody nobody 0 0]))))

/-- Every request on the management path from a host that may not ask is answered 0xF, and one that may but whose header
has a byte set that its row does not name, or whose payload has not the length of its row, 0xE, and nothing but the
response changes, unless a port has held the request, which it no longer does (log entry 141). Power-up leaves memory
reading 0 (log entry 2). Power-up leaves the state of reset but for what survives, with an election open. A claim over
the open challenge is answered 1 where its signature verifies and 0 otherwise: with an empty list a valid claim elects
its sender; otherwise it is noted under its list index, and the lowest wins when the election closes. The loss of an
owner opens an election. A handover names a listed host, whose valid claim makes it owner, and lapses once its time
has passed: no host is named then. Digests are listed and removed, and the owner stays who it is. Firmware that
verifies is held for the threads of its mask, other firmware is answered 0xF, and a thread switches to it once no
launch of its queue is short of done, those of graph nodes that wait among them, and not before. Status, bindings and
key sets are read and set. The model's choices: 0xF is answered before 0xE (log entry 70), an association that no
owner has bound counts as the management path (62), a handover lapses by an act of its own (72), power-up forgets
retired cores (143), waiting graph nodes hold back a firmware switch (164), a key set takes the next handle (187), and
an accept that does not verify is answered 0x0 (189). (16_isolation.md, 17_recovery.md, R351, R354, R355, R356, R357,
R358, R359, R360, R391) -/
def Obligations.OwnersAndRequests : Prop :=
  let owners : List ((MReq → Instr) × Nat × Option Nat × List (Nat × Nat)) := [(.createVirtualDevice, 0x01, some 128, [])
    , (.destroyVirtualDevice, 0x02, some 0, []), (.installKeySet, 0x03, none, []), (.setPtroot, 0x04, some 0, [(16, 8)])
    , (.writePeerEntry, 0x06, some 0, [(16, 1), (32, 16)]), (.bindAssociation, 0x07, some 0, [(16, 8), (24, 1)])
    , (.loadContainer, 0x08, some 0, [(16, 8), (24, 4), (32, 8)]), (.unloadContainer, 0x09, some 0, [(16, 2)])
    , (.setRecordRing, 0x0B, some 0, [(16, 8), (24, 1)]), (.updateFirmware, 0x0D, none, [(16, 4)])
    , (.handOverOwnership, 0x0F, some 0, [(16, 1)]), (.resetContext, 0x11, some 0, [(16, 1)])
    , (.readDeviationRing, 0x21, some 0, [(16, 8), (24, 2)])]
  let subs : List ((MReq → Instr) × Nat × Nat × Nat × Nat × List (Nat × Nat)) := [(.createQueue, 0x0A, 16, 0, 0, [(16, 1), (24, 8)])
    , (.deleteQueue, 0x0A, 16, 1, 0, [(16, 1), (32, 2)]), (.resumeQueue, 0x0A, 16, 2, 0, [(16, 1), (32, 2)])
    , (.resetQueue, 0x0A, 16, 3, 0, [(16, 1), (32, 2)]), (.createSharedRange, 0x0C, 16, 0, 0, [(16, 1), (24, 8), (32, 4), (36, 2)])
    , (.grantSharedRange, 0x0C, 16, 1, 0, [(16, 3)]), (.revokeSharedRange, 0x0C, 16, 2, 0, [(16, 2)])
    , (.deleteSharedRange, 0x0C, 16, 3, 0, [(16, 2)]), (.setAuthorisedDigest, 0x0E, 17, 0, 64, [(16, 2)])
    , (.clearAuthorisedDigest, 0x0E, 17, 1, 0, [(16, 2)])]
  let bound : List ((MReq → Instr) × Nat × List (Nat × Nat)) := [(.invalidateRange, 0x05, [(16, 8), (24, 8)]), (.wakeRequest, 0x10, [])
    , (.readJobRecords, 0x22, [(16, 8), (24, 1)])]
  let breaks (r : MReq) (len : Option Nat) (fields : List (Nat × Nat)) : Prop :=
    slice r.header.toNat 8 8 ≠ 0 ∨ slice r.header.toNat 24 8 ≠ 0 ∨ slice r.header.toNat 32 32 ≠ r.body.length ∨
      (∃ n, len = some n ∧ r.body.length ≠ n) ∨
      ∃ i, 16 ≤ i ∧ i < 64 ∧ reqArg r i 1 ≠ 0 ∧ ∀ f ∈ fields, i < f.1 ∨ f.1 + f.2 ≤ i
  let clear (s : State) (r : MReq) : State :=
    if reqOp r = 0x08 then { s with mgmt := { s.mgmt with held := s.mgmt.held.filter (fun h => h != r) } } else s
  (∀ (s : State) (r : MReq), s.onPath r = true →
    (∀ e ∈ owners, reqOp r = e.2.1 → s.isOwner r = false → exec (e.1 r) s = .next ((clear s r).reply r { status := 0xF })) ∧
    (∀ e ∈ subs, reqOp r = e.2.1 → reqArg r e.2.2.1 1 = e.2.2.2.1 → s.isOwner r = false →
      exec (e.1 r) s = .next (s.reply r { status := 0xF })) ∧
    (∀ e ∈ bound, reqOp r = e.2.1 → s.isOwner r = false → s.isBound r = false → exec (e.1 r) s = .next (s.reply r { status := 0xF })) ∧
    (reqOp r = 0x20 → s.authorised r = false → exec (.readPackageStatus r) s = .next (s.reply r { status := 0xF })) ∧
    (reqOp r = 0x30 → s.authorised r = false → s.mgmt.listed ≠ [] → exec (.claimOwnership r) s = .next (s.reply r { status := 0xF })) ∧
    (reqOp r = 0x31 → s.isNamed r = false → exec (.acceptHandover r) s = .next (s.reply r { status := 0xF })) ∧
    (∀ e ∈ owners, reqOp r = e.2.1 → s.isOwner r = true → breaks r e.2.2.1 e.2.2.2 →
      exec (e.1 r) s = .next ((clear s r).reply r { status := 0xE })) ∧
    (∀ e ∈ subs, reqOp r = e.2.1 → reqArg r e.2.2.1 1 = e.2.2.2.1 → s.isOwner r = true → breaks r (some e.2.2.2.2.1) e.2.2.2.2.2 →
      exec (e.1 r) s = .next (s.reply r { status := 0xE })) ∧
    (∀ e ∈ bound, reqOp r = e.2.1 → s.isOwner r = true ∨ s.isBound r = true → breaks r (some 0) e.2.2 →
      exec (e.1 r) s = .next (s.reply r { status := 0xE })) ∧
    (reqOp r = 0x20 → s.authorised r = true → breaks r (some 0) [] → exec (.readPackageStatus r) s = .next (s.reply r { status := 0xE })) ∧
    (reqOp r = 0x30 → s.authorised r = true ∨ s.mgmt.listed = [] → breaks r (some 7219) [] →
      exec (.claimOwnership r) s = .next (s.reply r { status := 0xE })) ∧
    (reqOp r = 0x31 → s.isNamed r = true → breaks r (some 7219) [] → exec (.acceptHandover r) s = .next (s.reply r { status := 0xE }))) ∧
  (∀ s : State, ∃ u : State, exec .powerUp s = .next u ∧ u.cores = [] ∧ u.mem = [] ∧ u.vds = [] ∧ u.threads = [] ∧ u.gops = [] ∧ u.copies = [] ∧
    u.mgmt.owner = none ∧ u.mgmt.open_ = true ∧ u.mgmt.claims = [] ∧ u.mgmt.assocs = [] ∧ u.mgmt.listed = s.mgmt.listed) ∧
  (∀ (s : State) (r : MReq), Served s r 0x30 (s.authorised r || s.mgmt.listed.isEmpty) [] → r.body.length = 7219 → s.mgmt.open_ = true →
    let ok := Config.mldsaVerify (r.body.take 2592) (Config.sha3_512 (leBytes 64 (Config.challenge s.mgmt.chall).toNat)) (r.body.drop 2592)
    let h := Config.sha3_512 (r.body.take 2592)
    (s.mgmt.listed = [] → Carried (.claimOwnership r) s r { result := if ok then 1 else 0 } (fun u => OnlyMgmt s u ∧
      u.mgmt = if ok then { s.mgmt with listed := [(0, h)], owner := some 0, ownerKey := h, open_ := false, claims := [] } else s.mgmt)) ∧
    (∀ i, s.indexOf h = some i → Carried (.claimOwnership r) s r { result := if ok then 1 else 0 } (fun u => OnlyMgmt s u ∧
      u.mgmt.owner = s.mgmt.owner ∧ u.mgmt.claims = if ok then s.mgmt.claims ++ [(i, h)] else s.mgmt.claims))) ∧
  (∀ s : State, s.mgmt.open_ = true →
    (∀ i h, (i, h) ∈ s.mgmt.claims → (∀ c ∈ s.mgmt.claims, i ≤ c.1) → ∃ u : State, exec .electionClose s = .next u ∧ OnlyMgmt s u ∧
      u.mgmt.owner = some i ∧ (∃ k, (i, k) ∈ s.mgmt.claims ∧ u.mgmt.ownerKey = k) ∧ u.mgmt.open_ = false ∧ u.mgmt.claims = []) ∧
    (s.mgmt.claims = [] → ∃ u : State, exec .electionClose s = .next u ∧ u.mgmt.owner = none ∧ u.mgmt.open_ = true ∧ u.mgmt.chall = s.fresh)) ∧
  (∀ s : State, s.mgmt.owner ≠ none → ∃ u : State, exec .ownerLoss s = .next u ∧ u.mgmt.owner = none ∧ u.mgmt.open_ = true ∧ u.mgmt.claims = [] ∧
    u.vds = s.vds) ∧
  (∀ (s : State) (r : MReq), Served s r 0x0F (s.isOwner r) [(16, 1)] → r.body = [] → (s.mgmt.listed.look (reqArg r 16 1)).isSome →
    Carried (.handOverOwnership r) s r {} (fun u => u.mgmt.handover = some (reqArg r 16 1, s.fresh) ∧ u.mgmt.chall = s.fresh ∧
      u.mgmt.owner = s.mgmt.owner)) ∧
  (∀ (s : State) (r : MReq) (i k : Nat), Served s r 0x31 (s.isNamed r) [] → r.body.length = 7219 → s.mgmt.handover = some (i, k) →
    s.mgmt.listed.look i = some (Config.sha3_512 (r.body.take 2592)) →
    let ok := Config.mldsaVerify (r.body.take 2592) (Config.sha3_512 (leBytes 64 (Config.challenge s.mgmt.chall).toNat)) (r.body.drop 2592)
    Carried (.acceptHandover r) s r {} (fun u => OnlyMgmt s u ∧ u.mgmt.owner = (if ok then some i else s.mgmt.owner) ∧
      u.mgmt.ownerKey = (if ok then Config.sha3_512 (r.body.take 2592) else s.mgmt.ownerKey) ∧
      u.mgmt.handover = if ok then none else s.mgmt.handover)) ∧
  (∀ s : State, ∃ u : State, s.act .lapse = .next u ∧ u = { s with mgmt := { s.mgmt with handover := none } } ∧
    ∀ r, u.isNamed r = false) ∧
  (∀ (s : State) (r : MReq), Served s r 0x0E (s.isOwner r) [(16, 2)] → reqArg r 16 1 < 8 →
    (reqArg r 17 1 = 0 → r.body.length = 64 → Carried (.setAuthorisedDigest r) s r {} (fun u => OnlyMgmt s u ∧ u.mgmt.ownerKey = s.mgmt.ownerKey ∧
      u.mgmt.listed.look (reqArg r 16 1) = some (BitVec.ofNat 512 (leNat r.body)) ∧
      ∀ j, j ≠ reqArg r 16 1 → u.mgmt.listed.look j = s.mgmt.listed.look j)) ∧
    (reqArg r 17 1 = 1 → r.body = [] → Carried (.clearAuthorisedDigest r) s r {} (fun u => OnlyMgmt s u ∧
      u.mgmt.listed.look (reqArg r 16 1) = none ∧ ∀ j, j ≠ reqArg r 16 1 → u.mgmt.listed.look j = s.mgmt.listed.look j))) ∧
  (∀ (s : State) (r : MReq), Served s r 0x20 (s.authorised r) [] → r.body = [] → ∃ body : List Byte,
    Carried (.readPackageStatus r) s r { body := body } (fun u => u = { s with fresh := s.fresh + 1 }) ∧ body.length = 128 ∧
      leNat ((body.drop 24).take 1) = s.mgmt.owner.getD 0xFF % 256 ∧ leNat (body.drop 64) = (Config.challenge s.mgmt.chall).toNat) ∧
  (∀ (s : State) (r : MReq) (a : Assoc), Served s r 0x07 (s.isOwner r) [(16, 8), (24, 1)] → r.body = [] →
    s.assoc? (reqArg r 16 8) = some a →
    (reqArg r 24 1 = 0 → Carried (.bindAssociation r) s r {} (fun u => OnlyMgmt s u ∧ u.assoc? (reqArg r 16 8) = some { a with bound := .mgmt })) ∧
    (reqArg r 24 1 = 1 → (s.vds.look (reqVd r)).isSome → Carried (.bindAssociation r) s r {} (fun u => OnlyMgmt s u ∧
      u.assoc? (reqArg r 16 8) = some { a with bound := .vdev (reqVd r) }))) ∧
  (∀ (s : State) (r : MReq) (n : Nat), Served s r 0x03 (s.isOwner r) [] → n ≤ 4 → r.body.length = 128 + 2592 * n →
    leNat ((r.body.drop 64).take 1) = n → leNat ((r.body.drop 65).take 63) = 0 → s.mgmt.nextKey < 2 ^ 16 →
    Carried (.installKeySet r) s r { result := s.mgmt.nextKey } (fun u => OnlyMgmt s u ∧ u.mgmt.nextKey = s.mgmt.nextKey + 1 ∧
      ∃ k, u.mgmt.keysets.look s.mgmt.nextKey = some k ∧ k.k1.toNat = leNat (r.body.take 32) ∧ k.k2.toNat = leNat ((r.body.drop 32).take 32) ∧
        k.keys = (List.range n).map (fun i => (r.body.drop (128 + 2592 * i)).take 2592))) ∧
  (∀ (s : State) (r : MReq), Served s r 0x0D (s.isOwner r) [(16, 4)] → 4736 ≤ r.body.length →
    let image := r.body.take (r.body.length - 4736)
    let ok := signedBy Config.dorayKey image (r.body.drop (r.body.length - 4736))
    if ok then Carried (.updateFirmware r) s r {} (fun u => ∀ t < 32, (u.threads.getD t {}).next =
      if (reqArg r 16 4).testBit t then some (Config.sha3_512 image) else (s.threads.getD t {}).next)
    else exec (.updateFirmware r) s = .next (s.reply r { status := 0xF })) ∧
  (∀ (s : State) (t : Nat) (fw : BitVec 512), (s.threads.getD t {}).next = some fw →
    let undone (d : VDev) (q : Nat) : Prop := (∃ l ∈ d.launches, l.2.queue = q ∧ l.2.st ≠ .done) ∨
      ∃ g ∈ d.graphs, g.2.queue = q ∧ g.2.done = false ∧ ∃ n ∈ g.2.nodes, n.2.st = .waiting ∧ n.2.packet.toNat % 16 = 1
    ((∃ v q d, (s.threads.getD t {}).queue = some (v, q) ∧ s.vds.look v = some d ∧ undone d q) → exec (.firmwareSwitch t) s = .next s) ∧
    ((∀ v q d, (s.threads.getD t {}).queue = some (v, q) → s.vds.look v = some d → ¬undone d q) →
      ∃ u : State, exec (.firmwareSwitch t) s = .next u ∧ (u.threads.getD t {}).fw = some fw ∧ (u.threads.getD t {}).next = none))

/-- A creation that is refused answers its code and changes nothing; one that is accepted answers the lowest free number,
under which the device then stands, and shares no cluster, segment or cache way with another; in its pooled ranges,
what a deleted shared range left under another key pair reads zero, and all other memory is as before. A destroyed
device is gone, with its accesses, copies and grants, and every byte it owned reads zero. PTROOT, peer entries and the
record ring become what a well-formed request says. An invalidation drops every translation of its range at once and
is answered only when it completes, which needs every access that could have used one to be done; a grant that it
withdraws goes then. A wake request wakes a collapsed device at once, though what a held copy restores waits for its
port (log entry 141; R392). A reset context's shape variables are gone, others stay. Deviation entries and job records
are returned, zeros for entries lost to poison, and 0xE where WRITTEN is (log entry 154). The model's choices: which
number a creation takes (log entry 78), which code its key set gives (79, 123), what is checked of the areas (80),
what a destruction does with what is in flight (81), what an invalidation waits for (82), RECLOG of a request that
unsets the ring (84), entries not yet written (77) and zeros for what no key opens (146). (16_isolation.md, R106,
R289, R328, R330, R336, R344, R349, R352, R357, R362, R365) -/
def Obligations.VirtualDevicesManaged : Prop :=
  (∀ (s : State) (r : MReq), Served s r 0x01 (s.isOwner r) [] → r.body.length = 128 →
    let d : VDev := { descr := BitVec.ofNat 1024 (leNat r.body) }
    (s.creation d ≠ 0 → exec (.createVirtualDevice r) s = .next (s.reply r { status := s.creation d })) ∧
    (s.creation d = 0 → ∀ v < 64, s.vds.look v = none → (∀ k < v, s.vds.look k ≠ none) →
      let sealed_ (x : Sealed) : Prop := ∀ k, s.mgmt.keysets.look (slice d.descr.toNat 528 16) = some k → ¬(k.k1 = x.k1 ∧ k.k2 = x.k2)
      Carried (.createVirtualDevice r) s r { result := v } (fun u => u.vds.look v = some d ∧
        (∀ a, (∀ x ∈ s.mgmt.left, ∀ p ∈ d.pools, x.base ≤ a → a < x.base + x.len → p.1 ≤ a → a < p.1 + p.2 → ¬sealed_ x) →
          Memory.read u.mem a = Memory.read s.mem a) ∧
        (∀ x ∈ s.mgmt.left, ∀ p ∈ d.pools, sealed_ x → ∀ a, x.base ≤ a → a < x.base + x.len → p.1 ≤ a → a < p.1 + p.2 →
          Memory.read u.mem a = 0) ∧
        (∀ k, k ≠ v → u.vds.look k = s.vds.look k) ∧ u.wakeBits.look (v * 2 ^ 15) = some (v, false)) ∧
      ∀ e ∈ s.vds, ∀ k, 704 ≤ k → k < 1000 → ¬(e.2.descr.getLsbD k = true ∧ d.descr.getLsbD k = true))) ∧
  (∀ (s : State) (r : MReq) (d : VDev), Served s r 0x02 (s.isOwner r) [] → r.body = [] → s.vds.look (reqVd r) = some d →
    Carried (.destroyVirtualDevice r) s r {} (fun u => u.vds.look (reqVd r) = none ∧ (∀ a, d.owns (reqVd r) a = true → Memory.read u.mem a = 0) ∧
      (∀ g ∈ u.gops, g.vd ≠ reqVd r) ∧ (∀ c ∈ u.copies, c.vd ≠ reqVd r) ∧
      (∀ n x, u.mgmt.shared.look n = some x → x.grants.look (reqVd r) = none) ∧
      ∀ core t, t ∈ (u.core core).tlb → t.vd ≠ reqVd r)) ∧
  (∀ (s : State) (r : MReq) (d : VDev), s.vds.look (reqVd r) = some d → r.body = [] →
    (Served s r 0x04 (s.isOwner r) [(16, 8)] → reqArg r 16 8 % 65536 = 0 → (reqArg r 16 8 = 0 ∨ d.inSegments (reqArg r 16 8) 65536 = true) →
      Carried (.setPtroot r) s r {} (fun u => OnlyVd s u (reqVd r) ∧ u.vds.look (reqVd r) = some { d with ptroot := reqArg r 16 8 })) ∧
    (Served s r 0x06 (s.isOwner r) [(16, 1), (32, 16)] → 1 ≤ reqArg r 16 1 → reqArg r 16 1 ≤ 31 → peerOk (reqArg r 32 16) = true →
      Carried (.writePeerEntry r) s r {} (fun u => OnlyVd s u (reqVd r) ∧ u.vds.look (reqVd r) = some { d with
        peers := d.peers.put (reqArg r 16 1) (BitVec.ofNat 128 (reqArg r 32 16)) })) ∧
    (Served s r 0x0B (s.isOwner r) [(16, 8), (24, 1)] → reqArg r 16 8 % 32768 = 0 → 4 ≤ reqArg r 24 1 → reqArg r 24 1 ≤ 12 →
      (reqArg r 16 8 = 0 ∨ d.inSegments (reqArg r 16 8) (32768 * (1 + 2 ^ reqArg r 24 1)) = true) →
      Carried (.setRecordRing r) s r {} (fun u => OnlyVd s u (reqVd r) ∧
        u.vds.look (reqVd r) = some { d with recBase := reqArg r 16 8, recLog := reqArg r 24 1 })) ∧
    (Served s r 0x10 (s.isOwner r || s.isBound r) [] → d.power = .collapsed ∨ d.power = .collapsing →
      Carried (.wakeRequest r) s r {} (fun u => (d.stage ≤ 2 ∨ 4 ≤ d.stage ∧ s.eclipseHeld d = true → OnlyVd s u (reqVd r)) ∧
        ∃ d' : VDev, u.vds.look (reqVd r) = some d' ∧ d'.power = .waking ∧ d'.notices = d.dies ∧ d'.counting = [] ∧
          d'.stage = if 4 ≤ d.stage ∧ s.eclipseHeld d = true then d.stage else 0)) ∧
    (Served s r 0x11 (s.isOwner r) [(16, 1)] → reqArg r 16 1 ≤ 15 →
      (∀ q ∈ d.queues, q.2.ctx = reqArg r 16 1 → s.work (reqVd r) q.1 = false) →
      Carried (.resetContext r) s r {} (fun u => OnlyVd s u (reqVd r) ∧ ∃ d' : VDev, u.vds.look (reqVd r) = some d' ∧ d' = { d with vars := d'.vars } ∧
        (∀ i < 32, d'.vars.look (32 * reqArg r 16 1 + i) = none) ∧
        ∀ k, k / 32 ≠ reqArg r 16 1 → d'.vars.look k = d.vars.look k)) ∧
    (Served s r 0x05 (s.isOwner r || s.isBound r) [(16, 8), (24, 8)] → reqArg r 16 8 % 65536 = 0 → reqArg r 24 8 % 65536 = 0 →
      reqArg r 16 8 + reqArg r 24 8 ≤ 2 ^ 56 → reqArg r 16 8 < 2 ^ 56 →
      let lo : Nat := if reqArg r 24 8 = 0 then 0 else reqArg r 16 8
      let n : Nat := if reqArg r 24 8 = 0 then 2 ^ 56 else reqArg r 24 8
      ∃ (u : State) (i : Inval), exec (.invalidateRange r) s = .next u ∧ u.mem = s.mem ∧ u.vds = s.vds ∧ u.mgmt.sent = s.mgmt.sent ∧
        u.mgmt.invals = s.mgmt.invals ++ [i] ∧ i.vd = reqVd r ∧ i.first = lo ∧ i.len = n ∧ i.req = r ∧ i.range = none ∧
        (∀ core t, t ∈ (u.core core).tlb → t.vd = reqVd r → t.page + 2 ^ t.log ≤ lo ∨ lo + n ≤ t.page) ∧
        (∀ g ∈ s.gops, g.vd = reqVd r → g.settled = false → g.id ∈ i.ops) ∧ (∀ c ∈ s.copies, c.vd = reqVd r → c.id ∈ i.ops) ∧
        (∀ l ∈ s.ovls, l.vd = reqVd r → l.id ∈ i.ops) ∧
        ∀ l ∈ u.ovls, ∀ t ∈ l.trans, t.vd = reqVd r → t.page + 2 ^ t.log ≤ lo ∨ lo + n ≤ t.page) ∧
    (Served s r 0x21 (s.isOwner r) [(16, 8), (24, 2)] → 1 ≤ reqArg r 24 2 → reqArg r 24 2 ≤ 128 →
      let base : Nat := slice d.descr.toNat 592 48
      let size : Nat := 2 ^ (4 + slice d.descr.toNat 588 4)
      let written : Nat := leNat (Memory.readN s.mem base 8)
      (s.linePoisoned base 8 = true → exec (.readDeviationRing r) s = .next (s.reply r { status := 0xE })) ∧
      (s.linePoisoned base 8 = false → ∃ body : List Byte, Carried (.readDeviationRing r) s r { body := body } (fun u => u = s) ∧ body.take 8 = Memory.readN s.mem base 8 ∧
        ∀ k < reqArg r 24 2, (body.drop (8 + 32 * k)).take 32 =
          (if reqArg r 16 8 + k < written ∧ written ≤ reqArg r 16 8 + k + size ∧
              s.linePoisoned (base + 64 + 32 * ((reqArg r 16 8 + k) % size)) 32 = false then
            Memory.readN s.mem (base + 64 + 32 * ((reqArg r 16 8 + k) % size)) 32 else List.replicate 32 0))) ∧
    (∀ bytes : List Byte, Served s r 0x22 (s.isOwner r || s.isBound r) [(16, 8), (24, 1)] → reqArg r 24 1 = 1 →
      FMap.look d.recKept (reqArg r 16 8) = some bytes → d.recBase = 0 →
      Carried (.readJobRecords r) s r { body := bytes } (fun u => OnlyVd s u (reqVd r) ∧ ∃ d' : VDev, u.vds.look (reqVd r) = some d' ∧
        d' = { d with recKept := d.recKept.filter (fun e => decide (reqArg r 16 8 < e.1)) }))) ∧
  (∀ (s : State) (id : Nat) (i : Inval), s.mgmt.invals.find? (fun o => o.id == id) = some i → (∀ k ∈ i.ops, s.pending k = false) →
    (∀ w ∈ s.walks, w.vd = i.vd → (w.page + 1) * 2 ^ w.log ≤ i.first ∨ i.first + i.len ≤ w.page * 2 ^ w.log) →
    Carried (.invalidateComplete id) s i.req {} (fun u => u.mem = s.mem ∧ u.vds = s.vds ∧
      u.mgmt.invals = s.mgmt.invals.filter (fun o => o.id != id) ∧ (i.range = none → u.mgmt.shared = s.mgmt.shared) ∧
      ∀ n x, i.range = some n → s.mgmt.shared.look n = some x →
        ∃ x' : Shared, u.mgmt.shared.look n = some x' ∧ x' = { x with grants := x'.grants } ∧ x'.grants.look i.vd = none ∧
          ∀ v, v ≠ i.vd → x'.grants.look v = x.grants.look v))

/-- A queue is made from a descriptor in the device's own places, under the next handle, with the descriptor's fields and
HEAD, running, or 0xE where the descriptor is poisoned; it is deleted, which still wakes the device for a wake write
performed there, or reset to its TAIL, where it has no work, and resumed where it is halted, and otherwise the request
is answered 0xF. A container request waits while a port holds what it reads or writes (log entry 141; R392). A
container that fails a check answers the code of R303 and changes nothing; one that passes, with no data image, is
loaded whole: its overlays stand at their image addresses with their digests, and the answer holds the first kernel
handle, from which its kernels stand at handles that were free, and their number. A container is unloaded with its ids
unless something still uses it (4). A shared range is made at the lowest free number with a key set that nothing else
uses, zeros standing for what another key pair left there, granted, withdrawn, which begins an invalidation that the
accesses in flight finish before, with the grant, and removed once it has no grants, its bytes left under its key
pair. The model's choices: HEAD and STATUS at creation (log entry 63), a queue's index, never an earlier one's (178),
what counts against the quota (50), which handles are taken (175), the data image's rights (75), limits of a container
that R50 does not list (76), a revocation's moment (83), the wake bit of a deleted queue (87), a poisoned descriptor
(47), a reset whose read of TAIL fails, answered 0xE (158), the range's own key set (123) and the zeros (146).
(13_scheduling.md, 16_isolation.md, R281, R284, R303, R337, R357, R361, R362) -/
def Obligations.QueuesContainersRanges : Prop :=
  (∀ (s : State) (r : MReq) (d : VDev) (pa : Nat), Served s r 0x0A (s.isOwner r) [(16, 1), (24, 8)] → r.body = [] → reqArg r 16 1 = 0 →
    s.vds.look (reqVd r) = some d → s.ownPlace (reqVd r) (reqArg r 24 8) 64 = some pa → reqArg r 24 8 % 64 = 0 →
    (d.inSegments pa 64 = true ∨ reqVd r * 2 ^ 21 ≤ pa ∧ pa + 64 ≤ (reqVd r + 1) * 2 ^ 21) → d.wakeClass < 2 → d.nextQ < 2 ^ 16 →
    let e : Nat := leNat (Memory.readN s.mem pa 64)
    (s.linePoisoned pa 64 = true → exec (.createQueue r) s = .next (s.reply r { status := 0xE })) ∧
    (s.linePoisoned pa 64 = false → queueOk e = true → Carried (.createQueue r) s r { result := d.nextQ } (fun u => ∃ (d' : VDev) (x : Queue), u.vds.look (reqVd r) = some d' ∧
      d'.nextQ = d.nextQ + 1 ∧ d'.queues.look d.nextQ = some x ∧ x.desc = reqArg r 24 8 ∧ x.base = slice e 0 64 ∧ x.log2n = slice e 256 8 ∧
      x.head = slice e 128 64 ∧ x.prio = slice e 264 2 ∧ x.slice = slice e 288 32 ∧ x.quant = slice e 320 32 ∧ x.wdog = slice e 352 32 ∧
      x.ctx = slice e 384 8 ∧ x.status = 0 ∧ x.thread = none ∧ x.blocked = .no ∧
      u.wakeBits.look (pa / 64) = some (reqVd r, decide (s.wakeBits.look (pa / 64) = some (reqVd r, true)))))) ∧
  (∀ (s : State) (r : MReq) (x : Queue), Served s r 0x0A (s.isOwner r) [(16, 1), (32, 2)] → r.body = [] →
    s.queue? (reqVd r) (reqArg r 32 2) = some x →
    let q : Nat := reqArg r 32 2
    let no : Out := .next (s.reply r { status := 0xF })
    (reqArg r 16 1 = 1 → (s.work (reqVd r) q = true → exec (.deleteQueue r) s = no) ∧
      (s.work (reqVd r) q = false → Carried (.deleteQueue r) s r {} (fun u => u.queue? (reqVd r) q = none ∧
        (s.wakeBits.look x.line ≠ some (reqVd r, true) → u.mem = s.mem) ∧
        (s.wakeBits.look x.line = some (reqVd r, true) → x.line ≠ reqVd r * 2 ^ 15 → ∀ d, s.vds.look (reqVd r) = some d →
          (∀ e ∈ d.queues, e.1 ≠ q → e.2.line ≠ x.line) → d.power = .collapsed → d.stage ≤ 3 →
          ∃ d', u.vds.look (reqVd r) = some d' ∧ d'.power = .waking)))) ∧
    (reqArg r 16 1 = 2 → (x.status = 0 → exec (.resumeQueue r) s = no) ∧
      (x.status ≠ 0 → Carried (.resumeQueue r) s r {} (fun u => u.queue? (reqVd r) q = some { x with status := 0, blocked := .no }))) ∧
    (reqArg r 16 1 = 3 → (s.work (reqVd r) q = true → exec (.resetQueue r) s = no) ∧
      (s.work (reqVd r) q = false → ∀ t : Nat, s.tail (reqVd r) x = some t → Carried (.resetQueue r) s r {} (fun u =>
        u.queue? (reqVd r) q = some { x with head := t, status := 0, blocked := .no })) ∧
      (s.work (reqVd r) q = false → s.tail (reqVd r) x = none →
        exec (.resetQueue r) s = .next ((s.saw (reqVd r) (x.desc + 24) 8).reply r { status := 0xE })))) ∧
  (∀ (s s0 : State) (r : MReq) (d : VDev) (bs : List Byte), Served s r 0x08 (s.isOwner r) [(16, 8), (24, 4), (32, 8)] → r.body = [] →
    s.vds.look (reqVd r) = some d → reqArg r 16 8 % 64 = 0 → reqArg r 32 8 = 0 →
    let t := s.holdRequest r false
    (t.loadHeld r = true → exec (.loadContainer r) s = .next (s.holdRequest r true)) ∧
    (t.loadHeld r = false → ∀ c, t.cpRead (reqVd r) (reqArg r 16 8) (reqArg r 24 4) = (.error c, s0) →
      exec (.loadContainer r) s = .next (s0.reply r { status := 0xE })) ∧
    (t.loadHeld r = false → t.cpRead (reqVd r) (reqArg r 16 8) (reqArg r 24 4) = (.ok bs, s0) →
    let n : Nat := ((sections bs).filter (fun x => x.type == 3)).length
    let free (h : Nat) : Prop := h + n ≤ 65535 ∧ ∀ i < n, d.kernels.look (h + i) = none
    ((∀ h, ¬free h) → s0.loadStatus d bs ≠ 0) ∧
    (if s0.loadStatus d bs ≠ 0 then exec (.loadContainer r) s = .next (s0.reply r { status := s0.loadStatus d bs })
    else (∀ x ∈ sections bs, x.type ≠ 4) →
      ∃ h : Nat, free h ∧ (free d.nextK → h = d.nextK) ∧ Carried (.loadContainer r) s r { result := h + 2 ^ 16 * n } (fun u =>
        OnlyVd s0 u (reqVd r) ∧ ∃ d' : VDev, u.vds.look (reqVd r) = some d' ∧ d'.conts = d.conts + 1 ∧
          (∀ i < n, (d'.kernels.look (h + i)).isSome) ∧ (∀ k, k < h ∨ h + n ≤ k → d'.kernels.look k = d.kernels.look k) ∧
          ∀ x ∈ sections bs, x.type = 1 → d'.overlays.look x.id = some
            { cont := d.conts, image := reqArg r 16 8 + x.off, count := x.len / 12, digest := Config.sha3_512 ((bs.drop x.off).take x.len) })) ∧
    (s0.loadStatus d bs = 0 ∨ s0.loadStatus d bs = 1 ∨ s0.loadStatus d bs = 2 ∨ s0.loadStatus d bs = 3) ∧
    (leNat (bs.take 4) ≠ 0x5A564C50 → s0.loadStatus d bs = 1))) ∧
  (∀ (s : State) (r : MReq) (d : VDev) (c : Nat), Served s r 0x09 (s.isOwner r) [(16, 2)] → r.body = [] → s.vds.look (reqVd r) = some d →
    d.firstOf (reqArg r 16 2) = some c →
    (d.usesCont c = true → exec (.unloadContainer r) s = .next (s.reply r { status := 4 })) ∧
    (d.usesCont c = false → Carried (.unloadContainer r) s r {} (fun u => OnlyVd s u (reqVd r) ∧ ∃ d' : VDev, u.vds.look (reqVd r) = some d' ∧
      (∀ e ∈ d'.overlays, e.2.cont ≠ c) ∧ (∀ e ∈ d'.jtabs, e.2.cont ≠ c) ∧ (∀ e ∈ d'.kernels, e.2.cont ≠ c)))) ∧
  (∀ (s : State) (r : MReq) (i : Nat), Served s r 0x0C (s.isOwner r) [(16, 1), (24, 8), (32, 4), (36, 2)] → r.body = [] → reqArg r 16 1 = 0 →
    let base : Nat := reqArg r 24 8
    let gib : Nat := reqArg r 32 4
    base % 2 ^ 30 = 0 → 2 ^ 47 ≤ base → gib ≠ 0 → base + gib * 2 ^ 30 ≤ 2 ^ 48 → (s.mgmt.keysets.look (reqArg r 36 2)).isSome →
    (s.keyUsed (reqArg r 36 2) = true → exec (.createSharedRange r) s = .next (s.reply r { status := 0xE })) ∧
    (s.keyUsed (reqArg r 36 2) = false → (∀ e ∈ s.vds, ∀ p ∈ e.2.pools, p.1 + p.2 ≤ base ∨ base + gib * 2 ^ 30 ≤ p.1) →
    (∀ e ∈ s.mgmt.shared, e.2.base + e.2.gib * 2 ^ 30 ≤ base ∨ base + gib * 2 ^ 30 ≤ e.2.base) →
    i < 16 → s.mgmt.shared.look i = none → (∀ k < i, s.mgmt.shared.look k ≠ none) →
    Carried (.createSharedRange r) s r { result := i } (fun u => u = { s with mgmt := u.mgmt, mem := u.mem } ∧
      (s.mgmt.left = [] → u.mem = s.mem) ∧
      (∀ x ∈ s.mgmt.left, (∀ k, s.mgmt.keysets.look (reqArg r 36 2) = some k → ¬(k.k1 = x.k1 ∧ k.k2 = x.k2)) →
        ∀ a, x.base ≤ a → a < x.base + x.len → base ≤ a → a < base + gib * 2 ^ 30 → Memory.read u.mem a = 0) ∧
      u.mgmt.shared.look i = some { base := base, gib := gib, keyset := reqArg r 36 2, grants := [] }))) ∧
  (∀ (s : State) (r : MReq) (x : Shared), r.body = [] → s.mgmt.shared.look (reqArg r 17 1) = some x →
    (Served s r 0x0C (s.isOwner r) [(16, 1), (17, 1), (18, 1)] → reqArg r 16 1 = 1 → reqArg r 18 1 ≤ 1 → (s.vds.look (reqVd r)).isSome →
      Carried (.grantSharedRange r) s r {} (fun u => OnlyMgmt s u ∧ u.mgmt.shared.look (reqArg r 17 1) =
        some { x with grants := x.grants.put (reqVd r) (reqArg r 18 1 == 1) } ∧
        ∀ j ∈ u.mgmt.invals, j.vd = reqVd r → j.range ≠ some (reqArg r 17 1))) ∧
    (Served s r 0x0C (s.isOwner r) [(16, 1), (17, 1)] → reqArg r 16 1 = 2 → (x.grants.look (reqVd r)).isSome →
      ∃ (u : State) (i : Inval), exec (.revokeSharedRange r) s = .next u ∧ u.mem = s.mem ∧ u.mgmt.sent = s.mgmt.sent ∧
        u.mgmt.shared = s.mgmt.shared ∧ u.mgmt.invals = s.mgmt.invals ++ [i] ∧ i.vd = reqVd r ∧ i.req = r ∧
        i.range = some (reqArg r 17 1) ∧ (∀ g ∈ s.gops, g.vd = reqVd r → g.settled = false → g.id ∈ i.ops) ∧
        (∀ c ∈ s.copies, c.vd = reqVd r → c.id ∈ i.ops) ∧ ∀ core t, t ∈ (u.core core).tlb → t.vd = reqVd r → 2 ^ 56 ≤ t.page) ∧
    (Served s r 0x0C (s.isOwner r) [(16, 1), (17, 1)] → reqArg r 16 1 = 3 →
      (x.grants ≠ [] → exec (.deleteSharedRange r) s = .next (s.reply r { status := 0xF })) ∧
      (x.grants = [] → Carried (.deleteSharedRange r) s r {} (fun u => OnlyMgmt s u ∧ u.mgmt.shared.look (reqArg r 17 1) = none ∧
        ∀ k, s.mgmt.keysets.look x.keyset = some k →
          u.mgmt.left = s.mgmt.left ++ [{ base := x.base, len := x.gib * 2 ^ 30, k1 := k.k1, k2 := k.k2 }]))))
/-! ### The machine: frames, traps, encodings, steps, invariants, reset -/

/-- Where an integer, floating, conversion, dot, block or lane instruction (the first list; part is not among them) passes
the checks at issue, its selector is not exit, and its beam still stands after it: every v and c register that it does
not name as written, every matrix register, every predicate but D, the launch declarations, %emask, %ekind, %tcause,
%tpc, %taddr, handler mode and sleep of the beam are as before; so is every other beam, all memory and scratchpad,
every page walk but that it no longer holds the beam, every team, counter, directory and instruction-store slot, every
other virtual device, and of its own everything but its launches, of which only the poison count, the overlays and the
cores of their issues may differ, and the mark that the first team since a wake has issued. c0 and p7 are never
written. Where a matrix, memory, synchronisation, control, census or recovery instruction (the second list: all others
but rte, kill, ctxsv and ctxld) passes, is no exit and takes no trap: every v, c and m register that it does not name
as written, every predicate but D, the declarations, %taddr, and %tcause, %tpc, %emask and %ekind but under swrite
(and the last two under mshape) are as before; every other beam keeps everything but what it waits for; counters, %cyc
but under sread, instruction store but under ovl, directories but under the census instructions, scratchpads but under
stores and atomics are as before; and memory, but for lines found lost behind a shut port. Global stores, copies and
prism results come later, as their own statements say. (05_alu_isa.md, 07_matrix_isa.md, 10_memory_isa.md,
12_control_isa.md, R29, R30, R64, R109, R265, R353, R363, R387) -/
def Obligations.RegisterFrames : Prop :=
  (∀ (i : Instr) (op : Op) (h : Head) (ms : Mods) (s t : State) (x : Iss) (b : Beam), i.view = some (op, h, ms) →
    op ∈ [Op.add, .sub, .addc, .mul, .mulhi, .mad, .div, .rem, .min, .max, .abs, .neg, .and, .or, .xor, .andn, .shl, .shr, .sar, .rot,
      .clz, .ctz, .popc, .brev, .bfx, .bfi, .lea, .sel, .cmp, .mov, .movi, .movh, .ext, .fadd, .fsub, .fmul, .fma, .fmin, .fmax,
      .fminm, .fmaxm, .fcmp, .fclass, .fdiv, .frcp, .fsqrt, .frsq, .fexp2, .flog2, .fsin, .fcos, .ftanh, .fscale, .frint, .cvt,
      .cvtq, .cvtd, .dot2, .dot4, .dot8, .packb, .unpackb, .shfl, .vote, .redLane, .scan, .lead, .rebal, .topk] →
    s.passes i = some x → h.nas ≠ .exit → exec i s = .next t → t.beam? x.f.core x.f.slot = some b →
    b = { x.f.b with
      v := b.v, c := b.c, p := b.p, q := b.q, emptyV := b.emptyV, emptyC := b.emptyC, latch := b.latch, flow := b.flow, missed := b.missed
      found := b.found } ∧
    (∀ l n, l < 32 → n ∉ x.written.v → b.vreg l n = x.f.b.vreg l n) ∧
    (∀ n, x.f.b.ckey n ∉ x.written.c → b.creg n = x.f.b.creg n) ∧
    (∀ l n, l < 32 → (∀ k, h.d = .p k → k.toNat ≠ n ∨ n = 7) → b.preg l n = x.f.b.preg l n) ∧
    (∀ n, (∀ k, h.d = .q k → k.toNat ≠ n ∨ n = 7) → b.qreg n = x.f.b.qreg n) ∧
    (∀ core slot, (core, slot) ≠ (x.f.core, x.f.slot) → t.beam? core slot = s.beam? core slot) ∧
    (∀ k, t.core k = { s.core k with beams := (t.core k).beams }) ∧
    t = { s with cores := t.cores, vds := t.vds, fills := t.fills, walks := t.walks, nextId := t.nextId } ∧
    (∃ f : BeamRef × Nat → Bool, t.walks = s.walks.map (fun w => { w with beams := w.beams.filter f }) ∧ ∀ e, e.1 ≠ x.ref → f e = true) ∧
    (∀ v, v ≠ x.f.t.vd → t.vds.look v = s.vds.look v) ∧
    (∀ d, s.vds.look x.f.t.vd = some d → ∃ d' : VDev, t.vds.look x.f.t.vd = some d' ∧ d' = { d with launches := d'.launches, wokeBy := d'.wokeBy } ∧
      (∀ f, d.wokeBy = some f → d'.wokeBy = some { f with
        issued := f.issued || (x.f.b.resp.isNone && f.launch == x.f.t.launch && f.team == x.f.t.index) }) ∧
      (d.wokeBy = none → d'.wokeBy = none) ∧
      ∀ n l, d.launches.look n = some l → ∃ l' : Launch, d'.launches.look n = some l' ∧
        l' = { l with poison := l'.poison, ovls := l'.ovls, entered := l'.entered } ∧
        ∀ k, k ∈ l'.entered ↔ k ∈ l.entered ∨ (n = x.f.t.launch ∧ x.f.b.resp = none ∧ k = x.f.core))) ∧
  (∀ (i : Instr) (op : Op) (h : Head) (ms : Mods) (s t : State) (x : Iss) (b : Beam), i.view = some (op, h, ms) →
    op ∈ [Op.mshape, .mzero, .mfill, .mld, .mst, .mget, .mset, .mmov, .mcvt, .mma, .mmasp, .mtrn, .madd, .mhad, .minv, .mlu, .mchol,
      .msolve, .mexp, .mred, .part, .ld, .st, .lds, .sts, .atoms, .reds, .copy, .bcopy, .ncopy, .lda, .str, .svst, .atom, .redGlobal,
      .fence, .bar, .cbar, .wait, .arrive, .trigger, .spawn, .spawnTry, .sleep, .dirput, .dirdel, .dirmove, .dirq, .solicit,
      .respond, .nop, .joinat, .lpad, .ovl, .brk, .trap, .sread, .swrite, .fmt, .errq] →
    s.passes i = some x → h.nas ≠ .exit → exec i s = .next t → t.beam? x.f.core x.f.slot = some b → b.handler = x.f.b.handler →
    (∀ l n, l < 32 → n ∉ x.written.v → b.vreg l n = x.f.b.vreg l n) ∧
    (∀ n, x.f.b.ckey n ∉ x.written.c → b.creg n = x.f.b.creg n) ∧
    (∀ l n, l < 32 → n ∉ x.written.m → (∀ k, h.d = .m k → k.toNat ≠ n) → b.mreg l n = x.f.b.mreg l n) ∧
    (∀ l n, l < 32 → (∀ k, h.d = .p k → k.toNat ≠ n ∨ n = 7) → b.preg l n = x.f.b.preg l n) ∧
    (∀ n, (∀ k, h.d = .q k → k.toNat ≠ n ∨ n = 7) → b.qreg n = x.f.b.qreg n) ∧
    b.idx = x.f.b.idx ∧ b.gen = x.f.b.gen ∧ b.resp = x.f.b.resp ∧ b.decl = x.f.b.decl ∧ b.taddr = x.f.b.taddr ∧
    (op ≠ .swrite → b.tcause = x.f.b.tcause ∧ b.tpc = x.f.b.tpc) ∧
    (op ≠ .swrite → op ≠ .mshape → b.emask = x.f.b.emask ∧ b.ekind = x.f.b.ekind) ∧
    (∀ core slot b0, (core, slot) ≠ (x.f.core, x.f.slot) → s.beam? core slot = some b0 →
      ∃ b', t.beam? core slot = some b' ∧ b0.onlyWaits b') ∧
    (∀ core slot, (core, slot) ≠ (x.f.core, x.f.slot) → s.beam? core slot = none → t.beam? core slot = none) ∧
    (∀ k, (t.core k).counters = (s.core k).counters ∧ (op ≠ .sread → (t.core k).cyc = (s.core k).cyc) ∧
      (op ≠ .ovl → (t.core k).slots = (s.core k).slots) ∧
      (op ∉ [Op.dirput, .dirdel, .dirmove, .solicit, .respond] → (t.core k).dir = (s.core k).dir) ∧
      (op ∉ [Op.mst, .st, .sts, .atoms, .reds] → ∀ slot tm, (s.core k).teamIn slot = some tm →
        ∃ tm', (t.core k).teamIn slot = some tm' ∧ tm'.spad = tm.spad)) ∧
    OnlyLost s t)

/-- An instruction that passes and writes: each executing thread's destination holds its result, a pair for a 64-bit type,
with its mark, or its predicate, and no register is emptied. One that sends: its destination is emptied, and one
result is in flight for it. One that sleeps keeps its path, and its selector for later; it takes effect first once the
beam is awake (that a sleeping instruction's selector waits and a sent one's takes effect at its issue is the model's
choice, log entry 115). After the others the beam's paths are those of the selector. In a flow between two
instructions, for guard-true threads of the running path: seq, or no such thread, goes on to the next index; jmp goes
to index plus IMM, whole or as one suspended path beside the sequential one, which do not divide where the target is
the next index; a backward jump of the whole path hands the beam to the oldest suspended path; call pushes one entry
with the path's mask, return address, FMT and PART, runs the called threads and parks the others; ret parks at the
innermost call entry's address; exit ends the threads; jix makes one suspended path for each target, in ascending
order of the lowest table index. A path that comes to the ADDR of its top joinat entry parks; the oldest suspended
path runs then; once no thread is held back at an entry, its parked threads run on from there as one path with the
entry's FMT, PART and parent. That guard-false threads of a jix with several targets make a path of their own at the
next address, also where a target is that address, is the model's choice (log entry 168). (03_encoding.md,
11_execution.md, R59, R60, R61, R62, R64, R238, R239, R240, R241, R243) -/
def Obligations.InstructionsEndAndPathsMove : Prop :=
  (∀ (s : State) (i : Instr) (x : Iss), s.passes i = some x → x.h.nas ≠ .exit →
    let b0 := x.f.b
    (∀ (ty : Ty) (r : Nat → Nat) (b : Beam), (s.apply x (.write (x.results ty r) s)).beam? x.f.core x.f.slot = some b →
      let lo (l : Nat) : Cell32 := { val := BitVec.ofNat 32 (r l), pz := x.marked l }
      let hi (l : Nat) : Cell32 := { val := BitVec.ofNat 32 (r l / 2 ^ 32), pz := x.marked l }
      b.flow = b0.flow.advance x.h x.gm x.targets ∧ b.emptyV = b0.emptyV ∧ b.emptyC = b0.emptyC ∧ b.emptyM = b0.emptyM ∧
      (∀ n, x.h.d = .v n → ∀ l ∈ x.lanes, b.vreg l n.toNat = lo l ∧ (ty.wide = true → b.vreg l (n.toNat + 1) = hi l)) ∧
      (∀ n, x.h.d = .c n → x.h.uni = true → n ≠ 0 → ∀ l ∈ x.lanes, b.creg n.toNat = lo l ∧
        (ty.wide = true → b.creg (n.toNat + 1) = hi l))) ∧
    (∀ (r : Nat → Bool) (b : Beam), (s.apply x (.write (x.predResults r) s)).beam? x.f.core x.f.slot = some b →
      (∀ n, x.h.d = .p n → n ≠ 7 → ∀ l ∈ x.lanes, b.preg l n.toNat = { val := r l, pz := x.marked l }) ∧
      (∀ n, x.h.d = .q n → n ≠ 7 → x.lanes = [0] → b.qreg n.toNat = { val := r 0, pz := x.marked 0 })) ∧
    (∀ (o : RegOut), x.lanes ≠ [] →
      let t := s.apply x (.send o s)
      (∃ k, t.fills = s.fills ++ [k] ∧ k.beam = x.ref ∧ k.names = x.written ∧ k.out = o ∧ k.gop = none ∧ k.prism = none) ∧
      ∀ b, t.beam? x.f.core x.f.slot = some b → b.flow = b0.flow.advance x.h x.gm x.targets ∧ b.v = b0.v ∧ b.c = b0.c ∧ b.m = b0.m ∧
        b.emptyV = b0.emptyV ++ x.written.v ∧ b.emptyC = b0.emptyC ++ x.written.c ∧ b.emptyM = b0.emptyM ++ x.written.m) ∧
    (∀ b, (s.apply x (.sent s)).beam? x.f.core x.f.slot = some b → b.flow = b0.flow.advance x.h x.gm x.targets ∧ b.v = b0.v ∧ b.c = b0.c ∧
      b.m = b0.m ∧ b.emptyV = b0.emptyV ∧ b.emptyC = b0.emptyC ∧ b.emptyM = b0.emptyM) ∧
    ∀ w, ∃ b, (s.apply x (.sleep w s)).beam? x.f.core x.f.slot = some b ∧ b.flow = b0.flow ∧ b.sleep = w ∧
      b.pend = some { head := x.h, gm := x.gm, targets := x.targets }) ∧
  (∀ (s : State) (core slot : Nat) (b : Beam) (n : Sel), s.beam? core slot = some b → b.sleep = .ready → b.pend = some n →
    s.finish core slot = (s.setBeam core slot { b with pend := none }).advance core slot n.head n.gm n.targets) ∧
  (∀ (f : Flow) (h : Head) (p : Path) (gm : Word) (tg : List (Nat × Nat × Word)), f.Quiet p → gm &&& ~~~p.mask = 0 →
    let g := f.advance h gm tg
    let sm := p.mask &&& ~~~gm
    let next := BitVec.ofNat 32 (p.pc.toNat / 2 ^ 24 * 2 ^ 24 + p.pc.toNat % 2 ^ 13 + 1)
    let jump := BitVec.ofNat 32 (p.pc.toNat / 2 ^ 24 * 2 ^ 24 + ((p.pc.toNat % 2 ^ 13 : Nat) + h.imm.toInt).toNat)
    let goes (m pc : Word) : Path := { p with mask := m, pc := pc }
    let seqGoes : Prop := f.parksHere (goes sm next) = false
    (gm = 0 ∨ h.nas = .seq → f.Arrives (goes p.mask next) g) ∧
    (gm ≠ 0 →
      (h.nas = .jmp → sm = 0 → f.Jumps p jump true g) ∧
      (h.nas = .jmp → sm ≠ 0 → jump = next → f.Arrives (goes p.mask next) g) ∧
      (h.nas = .jmp → sm ≠ 0 → jump ≠ next → seqGoes → f.parksHere (goes gm jump) = false →
        g = { f with paths := f.others ++ [goes sm next, { goes gm jump with st := .suspended (f.ages + 1) }], ages := f.ages + 1 }) ∧
      (h.nas = .call → ∀ e, f.stack.free f.room = some e →
        g.stack.look e = some { call := true, mask := p.mask, addr := next, fmt := p.fmt, part := p.part, parent := p.top } ∧
        g.run = some { goes gm jump with top := some e } ∧
        (sm ≠ 0 → { goes sm next with top := some e, st := .parked } ∈ g.paths)) ∧
      (h.nas = .ret → ∀ e y, f.callEntry p.top = some e → f.stack.look e = some y →
        let back : Path := { goes gm y.addr with top := some e, st := .parked }
        (sm ≠ 0 → seqGoes → g = { f with paths := f.others ++ [back, goes sm next] }) ∧ (sm = 0 → p.top = some e → f.Meets e y back g)) ∧
      (h.nas = .exit → g.exited = f.exited ||| gm ∧
        let f' : Flow := { f with exited := f.exited ||| gm }
        (sm ≠ 0 → f'.Arrives (goes sm next) g) ∧
        (sm = 0 → (∀ x ∈ f.stack, ∃ r ∈ f.others, f.Under r x.1 ∧ ¬r.AtEntry x.1) → Flow.Elects { f' with paths := f.others } g) ∧
        (sm = 0 → ∀ e y, p.top = some e → f.stack.look e = some y → f'.Releases e y 0 g)) ∧
      (h.nas = .jix →
        (∀ n t m, jixGroups tg = [(n, t, m)] → (sm = 0 → f.Jumps p t (t.toNat / 2 ^ 24 == p.pc.toNat / 2 ^ 24) g) ∧
          (sm ≠ 0 → t = next → f.Arrives (goes p.mask next) g) ∧
          (sm ≠ 0 → t ≠ next → seqGoes → f.parksHere (goes gm t) = false →
            g = { f with paths := f.others ++ [goes sm next, { goes gm t with st := .suspended (f.ages + 1) }], ages := f.ages + 1 })) ∧
        (2 ≤ (jixGroups tg).length → seqGoes → (∀ a ∈ jixGroups tg, f.parksHere (goes a.2.2 a.2.1) = false) →
          let parts : List Path := (jixGroups tg).mapIdx (fun i a => { goes a.2.2 a.2.1 with st := .suspended (f.ages + i + 1) })
          let ages := f.ages + (jixGroups tg).length
          (sm ≠ 0 → g = { f with paths := f.others ++ goes sm next :: parts, ages := ages }) ∧
          (sm = 0 → Flow.Elects { f with paths := f.others ++ parts, ages := ages } g))))) ∧
  (∀ tg : List (Nat × Nat × Word), (∀ e ∈ tg, e.1 < 32) →
    (∀ e ∈ tg, ∃ a ∈ jixGroups tg, a.2.1 = e.2.2) ∧ (jixGroups tg).Pairwise (fun a b => a.1 ≤ b.1 ∧ a.2.1 ≠ b.2.1) ∧
    ∀ a ∈ jixGroups tg, (∃ e ∈ tg, e.2.2 = a.2.1 ∧ e.2.1 = a.1) ∧ (∀ e ∈ tg, e.2.2 = a.2.1 → a.1 ≤ e.2.1) ∧
      ∀ k, a.2.2.getLsbD k = true ↔ ∃ e ∈ tg, e.1 = k ∧ e.2.2 = a.2.1)

/-- A beam outside handler mode, with overlay 255 loaded, that takes a trap enters its handler: %tcause, %tpc and %taddr
are the trap's, its flow, selector and sleep are frozen, and one path of the running path's threads issues at index 0
of overlay 255 with FMT and PART as at launch, c48 to c63 being the trap registers of R369. In handler mode, or
without overlay 255, an ordinary beam's launch gets code 2 and an entry of type 0x06, and the beam is gone. An illegal
word traps with its lowest reason; a selector that leaves the overlay's indices, names no loaded table, returns from
no call or calls with a full stack takes the control-flow fault, and an indexed jump faults where one of its threads'
indices is beyond its table, else where its overlay is absent, else, where they are checked, where it reaches no
landing pad, and holds while its overlay loads; rte, ctxsv and ctxld outside a handler are illegal; an absent overlay
traps; an empty destination, or empty sources that all wait or of an instruction without a guard-true thread, hold
issue; an empty source without its wait bit, and a launch marker in a floating operand, trap. trap raises the software
trap after its completion. The model's choices: which reason an illegal rounding code has (log entry 27), that an
illegal word has not issued (28), the hold before the empty-read trap (17), POS (16), the poison trap before the
checks of an indexed jump (29), the hold with no guard-true thread (128), which selector fault comes first (129), the
register that a pair's marker names (130), and when an entry of type 0x0A follows (90). That an illegal word with the
opcode of lpad is no lpad, so that a jix to it gives reason 0x15, is the model's choice (log entry 169).
(17_recovery.md, R64, R79, R97, R259, R366, R367, R368, R369, R370, R372, R373) -/
def Obligations.TrapsTaken : Prop :=
  (∀ (s : State) (core slot : Nat) (b : Beam) (tm : Team) (d : VDev) (tr : Trap) (pc : Word) (nas : Option Sel),
    s.beam? core slot = some b → s.teamOf core b = some tm → s.vds.look tm.vd = some d → b.handler = none → d.overlays.look 255 ≠ none →
    let t := s.takeTrap core slot tr pc nas
    let mask : Word := match b.flow.run with | some p => p.mask | none => 0
    let saves : Prop := tr.cause = 0x11 ∨ tr.cause = 0x12
    let block := tm.area.getD 0 + b.decl.blockAt b.idx
    ∃ b' : Beam, t.beam? core slot = some b' ∧ b'.tcause = tr.word ∧ b'.tpc = pc ∧ b'.taddr = tr.addr ∧ b'.latch = none ∧
      b'.handler = some { cause := BitVec.ofNat 8 tr.cause, frozen := b.flow, nas := nas, sleep := b.sleep, pend := b.pend } ∧
      b'.flow.paths = [{ mask := mask, pc := 0xFF00_0000, fmt := 0x6B54_0000, part := 0x20, top := none, st := .running }] ∧
      b'.flow.stack = [] ∧ b'.flow.exited = ~~~mask ∧ b'.flow.room + b.flow.stack.length = max b.flow.room b.flow.stack.length ∧
      b'.sleep = .ready ∧ b'.pend = none ∧ b'.v = b.v ∧ b'.m = b.m ∧ b'.p = b.p ∧ b'.q = b.q ∧ b'.emptyV = b.emptyV ∧
      (∀ n < 48, b'.creg n = b.creg n) ∧ (b'.creg 58).val = BitVec.ofNat 32 b.decl.spad ∧
      (∀ n, 48 ≤ n → n < 64 → n ≠ 58 → (saves → n < 60) → b'.creg n = {}) ∧
      (saves → (b'.creg 60).val = BitVec.ofNat 32 block ∧ (b'.creg 61).val = BitVec.ofNat 32 (block / 2 ^ 32) ∧
        (b'.creg 62).val = BitVec.ofNat 32 (tm.area.getD 0) ∧ (b'.creg 63).val = BitVec.ofNat 32 (tm.area.getD 0 / 2 ^ 32)) ∧
      b'.missed = [] ∧ t = { s with cores := t.cores, walks := t.walks } ∧ t.walks = s.walks.map (fun w => { w with
        beams := w.beams.filter (fun e => e.1 != { core := core, slot := slot, gen := b.gen }) }) ∧ ∀ c k, (c, k) ≠ (core, slot) → t.beam? c k = s.beam? c k) ∧
  (∀ (s : State) (core slot : Nat) (b : Beam) (tm : Team) (d : VDev) (l : Launch) (tr : Trap) (pc : Word) (nas : Option Sel),
    s.beam? core slot = some b → b.resp = none → s.teamOf core b = some tm → s.vds.look tm.vd = some d →
    d.launches.look tm.launch = some l → l.teams.look tm.index = some (.resident core) →
    (b.handler ≠ none ∨ d.overlays.look 255 = none) →
    let t := s.takeTrap core slot tr pc nas
    t.beam? core slot = none ∧ t.mem = s.mem ∧ ∃ d' l', t.vds.look tm.vd = some d' ∧ d'.launches.look tm.launch = some l' ∧
      l'.code = some (l.code.getD 2) ∧ (d.errq.length < 256 → ∃ rest, d'.errq = d.errq ++
        errEntry 0x06 0 (bitsOf tr.word.toNat 24 5) 1 (s.launchLow tm.vd tm.launch) core pc.toNat 0 :: rest)) ∧
  (∀ (r : BitVec 8) (s : State) (f : Front), s.front = some f →
    exec (.illegalInstruction r) s = .next ((s.detected f).takeTrap f.core f.slot { cause := 0x01, reason := r.toNat } f.p.pc none)) ∧
  (∀ (s : State) (f : Front), s.front = some f →
    exec .nonresidentOverlayIssue s = .next ((s.detected f).takeTrap f.core f.slot { cause := 0x02, reason := 0x18 } f.p.pc none)) ∧
  (∀ (i : Instr) (op : Op) (h : Head) (ms : Mods) (s : State) (f : Front) (d : VDev), i.view = some (op, h, ms) → s.front = some f →
    s.vds.look f.t.vd = some d →
    let x : Iss := { f := f, op := op, h := h, ms := ms, e := op.entry h ms, gm := f.b.guardMask f.p h, targets := [] }
    let gone (q : Opnd × Bool × Pos × Nat) : Prop := f.b.anyEmpty (f.b.names q.2.2.1 q.1) = true
    let issues : Prop := entryReason f.b.limits op h ms = none ∧ navFault d f.b.flow f.p h x.gm = none
    (∀ r, entryReason f.b.limits op h ms = some r →
      exec i s = .next ((s.detected f).takeTrap f.core f.slot { cause := 0x01, reason := r.toNat } f.p.pc none)) ∧
    let index : Nat := f.p.pc.toNat % 2 ^ 13
    let target : Int := (Int.ofNat index) + h.imm.toInt
    let beyond : Prop := (x.gm ≠ 0 ∧ (h.nas = .jmp ∨ h.nas = .call) ∧ (target < 0 ∨ 5460 < target)) ∨
      ((x.gm ≠ f.p.mask ∨ h.nas = .seq) ∧ 5460 ≤ index)
    let fault (r : Nat) : Prop := exec i s = .next (s.apply x (.trap { cause := 0x02, reason := r }))
    (entryReason f.b.limits op h ms = none → (beyond → fault 0x11) ∧ (¬beyond → x.gm ≠ 0 →
      (h.nas = .jix → d.jtabs.look (h.imm.toNat % 2 ^ 10) = none → fault 0x13) ∧
      (h.nas = .ret → (∀ e ∈ f.b.flow.chain f.p.top, ∀ y, f.b.flow.stack.look e = some y → y.call = false) → fault 0x16) ∧
      (h.nas = .call → f.b.flow.stack.free f.b.flow.room = none → fault 0x17))) ∧
    (op ∈ [Op.rte, .ctxsv, .ctxld] → f.b.handler = none → ∃ r : BitVec 8,
      exec i s = .next ((s.detected f).takeTrap f.core f.slot { cause := 0x01, reason := r.toNat } f.p.pc none)) ∧
    (issues → (∃ n ∈ x.dests, f.b.anyEmpty n = true) → exec i s = .next s) ∧
    (issues → (∀ n ∈ x.dests, f.b.anyEmpty n = false) → (∃ q ∈ x.sources, gone q) →
      (x.gm = 0 ∨ ∀ q ∈ x.sources, gone q → q.2.1 = true) → exec i s = .next s) ∧
    (issues → (∀ n ∈ x.dests, f.b.anyEmpty n = false) → x.gm ≠ 0 → ∀ q ∈ x.sources, gone q → q.2.1 = false →
      (∀ r ∈ x.sources, r.2.2.2 < q.2.2.2 → gone r → r.2.1 = true) →
      exec i s = .next (s.apply x (.trap { cause := 0x03, pos := q.2.2.2 }))) ∧
    (issues → (∀ n ∈ x.dests, f.b.anyEmpty n = false) → (∀ q ∈ x.sources, ¬gone q) → f.b.decl.noinit = false →
      ∀ n l, h.a = .v n → x.e.a.fp = true → 0 < x.e.a.span → x.lanes.head? = some l →
      (f.b.vreg l n.toNat).val.toNat / 2 ^ 8 = 0x7F_A000 →
      exec i s = .next (s.apply x (.trap { cause := 0x04, lane := l, addr := BitVec.ofNat 64 ((f.b.vreg l n.toNat).val.toNat % 2 ^ 8) })))) ∧
  (∀ (x : Iss) (d : VDev) (c : Core) (tab : JTab), x.h.nas = .jix → d.jtabs.look (x.h.imm.toNat % 2 ^ 10) = some tab →
    let index (l : Nat) : Nat := (x.f.b.reg x.h.c l 0).val.toNat
    let goal (l : Nat) : Word := (tab.entries[index l]?).getD 0
    let gone (l : Nat) : Prop := c.slotOf (ovlOf (goal l)) = none
    let loads (l : Nat) : Prop := c.loadingIn (ovlOf (goal l)) ≠ none
    let pad (l : Nat) : Prop := ∃ slot h, c.slotOf (ovlOf (goal l)) = some slot ∧
      decodeWord (c.word slot (idxOf (goal l))) = some (.lpad h) ∧ h.imm.toNat % 2 ^ 10 = x.h.imm.toNat % 2 ^ 10
    ((∃ l ∈ x.lanes, tab.entries.length ≤ index l) → x.jixGate d c = .trap { cause := 0x02, reason := 0x12 }) ∧
    ((∀ l ∈ x.lanes, index l < tab.entries.length) →
      ((∃ l ∈ x.lanes, gone l ∧ ¬loads l) → x.jixGate d c = .trap { cause := 0x02, reason := 0x14 }) ∧
      ((∀ l ∈ x.lanes, gone l → loads l) →
        ((∃ l ∈ x.lanes, gone l) → x.jixGate d c = .hold) ∧
        ((∀ l ∈ x.lanes, ¬gone l) →
          (d.strict = true → (∃ l ∈ x.lanes, ¬pad l) → x.jixGate d c = .trap { cause := 0x02, reason := 0x15 }) ∧
          (d.strict = false ∨ (∀ l ∈ x.lanes, pad l) → x.h.uni = false →
            x.jixGate d c = .go { x with targets := x.lanes.map (fun l => (l, index l, goal l)) }))))) ∧
  (∀ (h : Head) (s : State) (x : Iss), s.passes (.trap h) = some x →
    (x.lanes = [] → exec (.trap h) s = .next (s.apply x (.sent s))) ∧
    (x.lanes ≠ [] → exec (.trap h) s = .next (s.apply x (.after
      { cause := 0x10, addr := if x.h.a = .imm then x.h.imm.setWidth 64 else 0, done := true } s))))

/-- For every instruction of the map that is well-formed, with every operand, selector, hint and modifier at every value
its entry admits, encode gives a word, and the decoder reads that word back as the instruction; the same through the
twelve bytes of the word. Conversely, where the decoder reads an instruction from a word, the instruction is well-
formed and the word is its encoding: no bit of the word is dropped, and no two words are one instruction.
(03_encoding.md, R51, R53, R54, R55, R68, R70, R77, R78) -/
def Obligations.EncodingRoundTrips : Prop :=
  (∀ (i : Instr), i.isWord = true → WellFormed i = true →
    ∃ w, encode i = some w ∧ decodeWord w = some i ∧ decodeTableWord 96 w.toNat = some i ∧
      ∃ bs : List Byte, encodeBytes i = some bs ∧ bs.length = 12 ∧ ∀ rest, decodeBytes (bs ++ rest) = .ok (i, rest)) ∧
  (∀ (w : InsnWord) (i : Instr), decodeWord w = some i → i.isWord = true ∧ WellFormed i = true ∧ encode i = some w)

/-- The word 0x10C3B801_00100803_50000000 decodes to fma.f32 v4, v1, v2, v3, and 0x10C81E01_00100803_500FFFFD to the same
under p0 with an empty v1 trapping, reuse of B, yield and a jump by -3. Words composed field by field from the tables
decode to add.i32 v2, v0, v1; cvt.f16.f32 v2, v1 in the mode rtz; shfl.i32.rot v3, v1, 1; ld.n32.x2 v4, c8;
fence.acq.dev; and nop. A word of group 0xB to 0xF is illegal with reason 0x01 under any limits, and so is the word of
all ones that an index beyond an overlay's length reads as. (03_encoding.md, R51, R52, R53, R54, R59, R68, R70, R71,
R72, R77, R79) -/
def Obligations.WordsDecode : Prop :=
  let word (fn uni wa wb wc d a b c md imm : Nat) : Nat :=
    fn * 2 ^ 86 + 7 * 2 ^ 79 + uni * 2 ^ 78 + wa * 2 ^ 77 + wb * 2 ^ 76 + wc * 2 ^ 75 + d * 2 ^ 62 + a * 2 ^ 52 + b * 2 ^ 42 +
      c * 2 ^ 32 + md * 2 ^ 20 + imm
  let head : Head := { nas := .seq, gneg := false, gidx := 7, uni := false, wa := true, wb := true, wc := true, reuse := false
                       yld := false, d := .none, a := .none, b := .none, c := .none, imm := 0 }
  let fma : Head := { head with d := .v 4, a := .v 1, b := .v 2, c := .v 3 }
  let f32 : ModA := { ty := .f32, rnd := .rne, sat := false, sub := 0 }
  decodeTableWord 96 0x10C3B801_00100803_50000000 = some (.fma fma f32) ∧
  decodeTableWord 96 0x10C81E01_00100803_500FFFFD =
    some (.fma { fma with nas := .jmp, gidx := 0, wa := false, reuse := true, yld := true, imm := 0xFFFFD } f32) ∧
  decodeTableWord 96 (word 0x000 0 0 0 1 2 0 1 0x3FF 0 0) =
    some (.add { head with wa := false, wb := false, d := .v 2, a := .v 0, b := .v 1 } { f32 with ty := .i32 }) ∧
  decodeTableWord 96 (word 0x081 0 0 1 1 2 1 0x3FF 0x3FF (0x0C * 128 + 0x0A * 4) 0) =
    some (.cvt { head with wa := false, d := .v 2, a := .v 1 } { dty := .f16, sty := .f32, rnd := .rtz, sat := false }) ∧
  decodeTableWord 96 (word 0x100 0 0 1 1 3 1 0x3FE 0x3FF 1 1) =
    some (.shfl { head with wa := false, d := .v 3, a := .v 1, b := .imm, imm := 1 } { f32 with ty := .i32, sub := 1 }) ∧
  decodeTableWord 96 (word 0x140 0 0 1 1 4 0x108 0x3FF 0x3FF (0x05 * 128 + 0x20) 0) =
    some (.ld { head with wa := false, d := .v 4, a := .c 8 } { ty := .n32, count := 1, ord := .rlx, scope := .beam }) ∧
  decodeTableWord 96 (word 0x1C0 1 1 1 1 0x3FF 0x3FF 0x3FF 0x3FF 0x00B 0) =
    some (.fence { head with uni := true } { ord := .acq, scope := .dev }) ∧
  decodeTableWord 96 (word 0x240 0 1 1 1 0x3FF 0x3FF 0x3FF 0x3FF 0 0) = some (.nop head) ∧
  ∀ (w : InsnWord), 0xB ≤ w.toNat / 2 ^ 92 → decodeWord w = none ∧ ∀ lim : Limits, illegalReason lim w = some 1

/-- A move of the agenda that names an error found is that event. In a v or c register the bits in error become zero and
the register is marked; in an m register the element's code becomes zero and the register is marked; a predicate
becomes false and marked; in a scratchpad word the bits in error become zero and the word is marked: nothing else of
the beam's registers or of the allocation changes, and no memory. A line's 64 bytes become zero and it is poisoned,
and no other byte changes; one that nothing owns and no grantee reads changes nothing. An instruction-store word that
holds an overlay is fetched again before it issues. A valid directory entry is freed. Each event enters one entry of
type 0x01 in the error queue of the virtual device concerned (for a shared range, of each grantee), or raises the
overflow counter where it is full, and raises the poison-events counter by one: SUB 0 with the lane, launch and core
for registers, 1 with launch and core for the scratchpad, 2 for a line found in a die cache, 3 or 4 with its address
for resident or pooled memory, 5 with the core for a directory entry. The beam whose instruction detects an error of
the store or of the directory is noted, so that the instruction counts. The model's choices: errors, and which bits
are in error, come from outside, as the agenda names them (log entries 4, 86, 102), SUB of a store word is a free
value (13), an entry that is not valid is not freed (85), and each grantee of a shared range has an entry (135).
(17_recovery.md, R362, R379, R383, R384, R387) -/
def Obligations.PoisonFound : Prop :=
  let noted (s u : State) (v : Nat) (e : BitVec 256) : Prop := ∀ d, s.vds.look v = some d → ∃ d' : VDev, u.vds.look v = some d' ∧
    d'.poisoned = d.poisoned + 1 ∧ (d.errq.length < 256 → d' = { d with poisoned := d'.poisoned, errq := d.errq ++ [e] }) ∧
    (256 ≤ d.errq.length → d' = { d with poisoned := d'.poisoned, overflow := d.overflow + 1 })
  (∀ (s : State) (g : Granule) (rest : List Act), s.agenda = .error g :: rest → step s = .next (State.event { s with agenda := rest } g)) ∧
  (∀ (s : State) (core slot : Nat) (b : Beam) (tm : Team), s.beam? core slot = some b → s.teamOf core b = some tm →
    let makes (g : Granule) (lane : Nat) (P : Beam → Prop) : Prop := ∃ b', (s.event g).beam? core slot = some b' ∧ P b' ∧
      b'.flow = b.flow ∧ b'.sleep = b.sleep ∧ b'.handler = b.handler ∧ (s.event g).mem = s.mem ∧ (s.event g).linePz = s.linePz ∧
      (∀ k j, (k, j) ≠ (core, slot) → (s.event g).beam? k j = s.beam? k j) ∧
      noted s (s.event g) tm.vd (errEntry 0x01 0 lane 1 (s.launchLow tm.vd tm.launch) core 0 0)
    (∀ reg lane good, lane < 32 → makes (.v core slot reg lane good) lane (fun b' =>
      b'.vreg lane reg = { val := (b.vreg lane reg).val &&& good, pz := true } ∧
      (∀ l n, l < 32 → (l, n) ≠ (lane, reg) → b'.vreg l n = b.vreg l n) ∧ b'.c = b.c ∧ b'.m = b.m ∧ b'.p = b.p ∧ b'.q = b.q)) ∧
    (∀ reg good, reg ≠ 0 → makes (.c core slot reg good) 0 (fun b' =>
      b'.creg reg = { val := (b.creg reg).val &&& good, pz := true } ∧
      (∀ n, b.ckey n ≠ b.ckey reg → b'.creg n = b.creg n) ∧ b'.v = b.v ∧ b'.m = b.m ∧ b'.p = b.p ∧ b'.q = b.q)) ∧
    (∀ reg lane i, lane < 32 → makes (.m core slot reg lane i) lane (fun b' =>
      let r := b.mreg lane reg
      let r' := b'.mreg lane reg
      let at_ := elemBits r.tag i
      r' = { r with img := r'.img, pz := true } ∧ r'.img.length = r.img.length ∧
      (r.tag.isBlock = false → at_ = (r.tag.width * i, r.tag.width)) ∧
      (∀ k, (leNat r'.img).testBit k = ((leNat r.img).testBit k && !decide (at_.1 ≤ k ∧ k < at_.1 + at_.2))) ∧
      (∀ l n, l < 32 → (l, n) ≠ (lane, reg) → b'.mreg l n = b.mreg l n) ∧ b'.v = b.v ∧ b'.c = b.c ∧ b'.p = b.p ∧ b'.q = b.q)) ∧
    (∀ n lane, n < 7 → lane < 32 → makes (.p core slot n lane) lane (fun b' =>
      b'.preg lane n = { val := false, pz := true } ∧ (∀ l k, l < 32 → (l, k) ≠ (lane, n) → b'.preg l k = b.preg l k) ∧
      b'.v = b.v ∧ b'.c = b.c ∧ b'.m = b.m ∧ b'.q = b.q)) ∧
    (∀ n, n < 7 → makes (.q core slot n) 0 (fun b' =>
      b'.qreg n = { val := false, pz := true } ∧ (∀ k, k ≠ n → b'.qreg k = b.qreg k) ∧
      b'.v = b.v ∧ b'.c = b.c ∧ b'.m = b.m ∧ b'.p = b.p))) ∧
  (∀ (s : State) (core word : Nat) (resp : Option Nat) (tm : Team) (good : BitVec 64), (s.core core).teamIn resp = some tm →
    let u := s.event (.spad core resp word good)
    (∃ tm' : Team, (u.core core).teamIn resp = some tm' ∧ tm' = { tm with spad := tm'.spad, spadPz := tm'.spadPz } ∧
      leNat (Memory.readN tm'.spad (8 * word) 8) = Nat.land (leNat (Memory.readN tm.spad (8 * word) 8)) good.toNat ∧
      (∀ a, a < 8 * word ∨ 8 * word + 8 ≤ a → Memory.read tm'.spad a = Memory.read tm.spad a) ∧
      ∀ g, g ∈ tm'.spadPz ↔ g ∈ tm.spadPz ∨ g = word) ∧
    u.mem = s.mem ∧ (∀ k j, u.beam? k j = s.beam? k j) ∧
    noted s u tm.vd (errEntry 0x01 1 0 1 (s.launchLow tm.vd tm.launch) core 0 0)) ∧
  (∀ (s : State) (line : Nat) (cached : Bool),
    let u := s.event (.line line cached)
    let owner := s.vds.find? (fun e => e.2.owns e.1 (64 * line))
    let lost : Prop := (∀ a < 64, Memory.read u.mem (64 * line + a) = 0) ∧ SameOutside s u (64 * line) 64 ∧ u.cores = s.cores ∧
      ∀ k, k ∈ u.linePz ↔ k ∈ s.linePz ∨ k = line
    (∀ v d, owner = some (v, d) → lost ∧
      noted s u v (errEntry 0x01 (if cached then 2 else if line < 2 ^ 31 then 3 else 4) 0 1 nobody nobody 0 (64 * line))) ∧
    (owner = none → s.readersOf line = [] → u = s) ∧
    (owner = none → s.readersOf line ≠ [] → lost ∧ ((s.readersOf line).Nodup → ∀ v ∈ s.readersOf line,
      noted s u v (errEntry 0x01 (if cached then 2 else 4) 0 1 nobody nobody 0 (64 * line))))) ∧
  (∀ (s : State) (core slot index k v : Nat) (by_ : Option Nat) (x : Slot) (d : VDev), (s.core core).slots.look slot = some x →
    x.overlay = some k → s.ownerOfCore core = some (v, d) →
    let u := s.event (.store core slot index by_)
    (u.core core).slots.look slot = some { x with stale := x.stale ++ [index] } ∧
      (∀ j, j ≠ slot → (u.core core).slots.look j = (s.core core).slots.look j) ∧ u.mem = s.mem ∧
      (∃ sub < 256, noted s u v (errEntry 0x01 sub 0 1 nobody core 0 0)) ∧
      ∀ j b, s.beam? core j = some b → u.beam? core j = some { b with found := b.found || decide (by_ = some j) }) ∧
  (∀ (s : State) (core index v : Nat) (by_ : Option Nat) (d : VDev), s.ownerOfCore core = some (v, d) →
    let u := s.event (.dir core index by_)
    (u.core core).entry index = (if ((s.core core).entry index).state = 1 then {} else (s.core core).entry index) ∧
      (∀ j, j ≠ index → (u.core core).entry j = (s.core core).entry j) ∧ u.mem = s.mem ∧
      noted s u v (errEntry 0x01 5 0 1 nobody core 0 0) ∧
      ∀ j b, s.beam? core j = some b → u.beam? core j = some { b with found := b.found || decide (by_ = some j) })

/-- Where a beam comes to issue before which, after the beam that issued last in its quadrant, none can issue, that is
awake, with no selector pending, no fetch of its handler, nothing to drain and no word that is due to be fetched
again, of a team that may issue: if the word at the address of its running path decodes, and is legal for the beam,
the step is the instruction's execution in the state in which that beam issues, with the beam noted as the last that
issued in its quadrant where the execution changed something; if the word is illegal, the step is the illegal-
instruction trap with its lowest reason; if the overlay is neither resident nor being loaded, the control-flow fault
0x18; while it is being loaded, nothing. Where a beam before it in its quadrant can issue, that one does. A step whose
agenda names an event is that event's execution; an instruction word, or an issue without a word, is no event and does
nothing there. One that names an error found, bytes kept as they stand, a step of a collapse or a lapsed handover is
that act. With an empty agenda the first move of the round that changes something is made. The agenda and its rounds
are the model's own (log entry 4). (03_encoding.md, 11_execution.md, 12_control_isa.md, R52, R79, R246, R259) -/
def Obligations.StepRunsTheDecodedInstruction : Prop :=
  (∀ (s : State) (core slot : Nat) (rest : List Act) (b : Beam) (t : Team) (d : VDev) (p : Path), s.agenda = .issue core slot :: rest →
    s.beam? core slot = some b → b.sleep = .ready → b.pend = none → b.fetch = false → b.drain = [] → s.teamOf core b = some t →
    s.vds.look t.vd = some d → d.power = .awake → t.entry = false → (core, t.gen) ∉ (s.gov.getD (dieOf core) {}).held → b.flow.run = some p →
    (s.core core).staleAt p.pc = false →
    let w : State := { s with agenda := rest }
    (∀ k ∈ ((s.core core).turns (slot / 16)).takeWhile (fun k => k != slot), w.progress (w.issueAt core k) = none) →
    let u : State := { s with agenda := rest, cur := some (core, slot) }
    let ran (o : Out) : Prop :=
      step s = match o with
        | .next v => .next (if u.moved v = true then v.updCore core (fun c => { c with rr := c.rr.put (slot / 16) slot }) else v)
        | o => o
    (∀ w, (s.core core).fetch p.pc = some w →
      (∀ i, illegalReason b.limits w = none → decodeWord w = some i → ran (exec i u)) ∧
      (∀ r, illegalReason b.limits w = some r → ran (exec (.illegalInstruction r) u))) ∧
    ((s.core core).fetch p.pc = none → (s.core core).loadingIn (ovlOf p.pc) = none → ran (exec .nonresidentOverlayIssue u)) ∧
    ((s.core core).fetch p.pc = none → (s.core core).loadingIn (ovlOf p.pc) ≠ none → step s = .next u)) ∧
  (∀ (s t : State) (core slot k : Nat) (rest : List Act), s.agenda = .issue core slot :: rest →
    let w : State := { s with agenda := rest }
    (∃ before after, ((s.core core).turns (slot / 16)).takeWhile (fun k => k != slot) = before ++ k :: after ∧
      ∀ j ∈ before, w.progress (w.issueAt core j) = none) → w.progress (w.issueAt core k) = some t → step s = .next t) ∧
  (∀ (s : State) (i : Instr) (rest : List Act), s.agenda = .event i :: rest →
    let issues : Prop := i.isWord = true ∨ (∃ r, i = .illegalInstruction r) ∨ i = .nonresidentOverlayIssue
    (¬issues → step s = exec i { s with agenda := rest }) ∧ (issues → step s = .next { s with agenda := rest })) ∧
  (∀ (s : State) (rest : List Act),
    let w : State := { s with agenda := rest }
    (∀ g, s.agenda = .error g :: rest → step s = .next (w.event g)) ∧
    (∀ core slot thread gran, s.agenda = .keep core slot thread gran :: rest → step s = .next (w.keepOlder core slot thread gran)) ∧
    (∀ core slot thread gran, s.agenda = .keepSpad core slot thread gran :: rest → step s = .next (w.keepSpad core slot thread gran)) ∧
    (∀ vd, s.agenda = .collapse vd :: rest → step s = .next (w.collapseOne vd)) ∧
    (s.agenda = .lapse :: rest → step s = .next w.lapse)) ∧
  (∀ (s t : State) (a : Act) (rest : List Act), s.agenda = [] → s.round = a :: rest → (∀ i, a = .event i → i ∈ s.events) →
    s.progress (s.act a) = some t → step s = .next { t with round := rest })

/-- From every state whose memory lists strictly rising addresses, none with the byte that an unlisted address reads as, a
step that answers a next state answers one whose memory has that form: whatever issues, happens or is found.
(01_machine.md, 08_memory.md, R9, R335) -/
def Obligations.MemoryStaysCanonical : Prop :=
  ∀ (s t : State), s.MemoryOk → step s = .next t → t.MemoryOk

/-- From every state the step answers a next state, or the refusal of an instruction word that no beam issues. From every
state in which no error queue holds more than 256 entries, a next state has that bound too; and from every state whose
virtual devices have numbers below 64, a next state's have. (16_isolation.md, 17_recovery.md, R327, R379) -/
def Obligations.StepsKeepErrorQueuesAndNumbers : Prop :=
  (∀ s : State, NoFault (step s)) ∧
  (∀ (s t : State), s.ErrorsOk → step s = .next t → t.ErrorsOk) ∧
  (∀ (s t : State), s.NumbersOk → step s = .next t → t.NumbersOk)

/-- In the state after reset: no virtual device exists, no core holds a beam, a team, an overlay, a directory entry that
is not free, or a counter other than 0; no association, key set, grant or request exists; the election is open and
there is no owner; no thread maps a queue or holds firmware; nothing is in flight; every byte of memory reads 0 (the
model's choice, log entry 2); and memory is canonical, the error queues within their bound, the numbers below 64. That
the authorised list and the counters are empty or 0 where the spec gives no value is the model's choice (log entry 3).
(00_scope.md, 14_census.md, 16_isolation.md, R304, R359, R391) -/
def Obligations.ResetMeetsTheInvariants : Prop :=
  let s := State.reset
  s.MemoryOk ∧ s.ErrorsOk ∧ s.NumbersOk ∧ (∀ v, s.vds.look v = none) ∧
  (∀ n, (s.core n).team = none ∧ (∀ slot, s.beam? n slot = none) ∧ (∀ o, (s.core n).slotOf o = none) ∧
    (∀ i, ((s.core n).entry i).state = 0) ∧ ∀ k, (s.core n).counters.getD k 0 = 0) ∧
  s.mgmt.open_ = true ∧ s.mgmt.owner = none ∧ s.mgmt.assocs = [] ∧ s.mgmt.keysets = [] ∧ s.mgmt.listed = [] ∧ s.mgmt.shared = [] ∧
  (∀ n, (s.threads.getD n {}).queue = none ∧ (s.threads.getD n {}).fw = none) ∧
  s.gops = [] ∧ s.fills = [] ∧ s.copies = [] ∧ s.arrivals = [] ∧ s.moves = [] ∧ s.ovls = [] ∧ s.agenda = [] ∧
  ∀ a, Memory.read s.mem a = 0
end

