-- ==== Sys2Proof/Laws/Maps.lean ====
section
/-!
SUPPORT. The laws of maps from numbers: what a key reads as after another map operation.
-/
namespace Sys2Proof.Machine

variable {α : Type}

@[simp] theorem FMap.look_nil (k : Nat) : FMap.look ([] : FMap α) k = none := rfl

theorem FMap.look_cons (e : Nat × α) (m : FMap α) (k : Nat) :
    FMap.look (e :: m) k = if k = e.1 then some e.2 else FMap.look m k := rfl

@[simp] theorem FMap.look_put_self (m : FMap α) (k : Nat) (a : α) : FMap.look (m.put k a) k = some a := by
  induction m with
  | nil => simp [FMap.put, FMap.look_cons]
  | cons e m ih =>
    unfold FMap.put
    split
    · simp [FMap.look_cons]
    · split
      · simp [FMap.look_cons]
      · simp [FMap.look_cons, *]

theorem FMap.look_put_ne (m : FMap α) {k j : Nat} (a : α) (h : j ≠ k) : FMap.look (m.put k a) j = FMap.look m j := by
  induction m with
  | nil => simp [FMap.put, FMap.look_cons, h]
  | cons e m ih =>
    unfold FMap.put
    split
    · subst_vars; simp [FMap.look_cons, h]
    · split
      · simp [FMap.look_cons, h]
      · simp [FMap.look_cons, ih]

/-- A key reads as what was put there, and every other key as before. -/
theorem FMap.look_put (m : FMap α) (k j : Nat) (a : α) :
    FMap.look (m.put k a) j = if j = k then some a else FMap.look m j := by
  by_cases h : j = k
  · subst h; simp
  · simp [h, FMap.look_put_ne m a h]

@[simp] theorem FMap.look_del_self (m : FMap α) (k : Nat) : FMap.look (m.del k) k = none := by
  induction m with
  | nil => rfl
  | cons e m ih =>
    unfold FMap.del at *
    by_cases h : e.1 = k
    · simpa [List.filter_cons, h] using ih
    · simp [h, FMap.look_cons, ih, Ne.symm h]

theorem FMap.look_del_ne (m : FMap α) {k j : Nat} (h : j ≠ k) : FMap.look (m.del k) j = FMap.look m j := by
  induction m with
  | nil => rfl
  | cons e m ih =>
    unfold FMap.del at *
    by_cases h' : e.1 = k
    · have hj : j ≠ e.1 := by omega
      simpa [List.filter_cons, h', FMap.look_cons, hj, h] using ih
    · simp [h', FMap.look_cons, ih]

/-- A key changed in place reads as the changed value, and every other key as before. -/
theorem FMap.look_upd (m : FMap α) (k j : Nat) (f : α → α) :
    FMap.look (m.upd k f) j = if j = k then (FMap.look m j).map f else FMap.look m j := by
  induction m with
  | nil => simp [FMap.upd]
  | cons e m ih =>
    have ih' : FMap.look (List.map (fun e => if e.1 = k then (e.1, f e.2) else e) m) j =
        if j = k then (FMap.look m j).map f else FMap.look m j := ih
    unfold FMap.upd
    simp only [List.map_cons, FMap.look_cons]
    by_cases he : e.1 = k <;> by_cases hj : j = e.1 <;> simp [he, hj, ih'] <;> simp_all

@[simp] theorem FMap.look_upd_self (m : FMap α) (k : Nat) (f : α → α) :
    FMap.look (m.upd k f) k = (FMap.look m k).map f := by simp [FMap.look_upd]

theorem FMap.look_upd_ne (m : FMap α) {k j : Nat} (f : α → α) (h : j ≠ k) :
    FMap.look (m.upd k f) j = FMap.look m j := by simp [FMap.look_upd, h]

@[simp] theorem FMap.getD_put_self (m : FMap α) (k : Nat) (a d : α) : FMap.getD (m.put k a) k d = a := by
  simp [FMap.getD]

theorem FMap.getD_put_ne (m : FMap α) {k j : Nat} (a d : α) (h : j ≠ k) :
    FMap.getD (m.put k a) j d = FMap.getD m j d := by simp [FMap.getD, FMap.look_put_ne m a h]

/-- What holds of every entry, and of the value put, holds of every entry after. -/
theorem FMap.all_put {P : Nat × α → Prop} {m : FMap α} {k : Nat} {a : α} (hm : ∀ e ∈ m, P e) (h : P (k, a)) :
    ∀ e ∈ m.put k a, P e := by
  induction m with
  | nil => simpa [FMap.put] using h
  | cons e m ih =>
    have he := hm e (by simp)
    have ht := ih (fun x hx => hm x (by simp [hx]))
    unfold FMap.put
    split
    · intro x hx
      rcases List.mem_cons.1 hx with rfl | hx
      · exact h
      · exact hm x (by simp [hx])
    · split
      · intro x hx
        rcases List.mem_cons.1 hx with rfl | hx
        · exact h
        · exact hm x hx
      · intro x hx
        rcases List.mem_cons.1 hx with rfl | hx
        · exact he
        · exact ht x hx

/-- What holds of every entry, and is kept by the change, holds of every entry after. -/
theorem FMap.all_upd {P : Nat × α → Prop} {m : FMap α} {k : Nat} {f : α → α} (hm : ∀ e ∈ m, P e)
    (h : ∀ a, P (k, a) → P (k, f a)) : ∀ e ∈ m.upd k f, P e := by
  intro e he
  obtain ⟨x, hx, rfl⟩ := List.mem_map.1 he
  have := hm x hx
  split
  · rename_i hk
    subst hk
    exact h x.2 this
  · exact this

/-- What holds of every entry holds of those that are left. -/
theorem FMap.all_del {P : Nat × α → Prop} {m : FMap α} {k : Nat} (hm : ∀ e ∈ m, P e) : ∀ e ∈ m.del k, P e :=
  fun e he => hm e (List.mem_filter.1 he).1

/-- A key that is read is one of the entries. -/
theorem FMap.mem_of_look {m : FMap α} {k : Nat} {a : α} (h : FMap.look m k = some a) : (k, a) ∈ m := by
  induction m with
  | nil => simp at h
  | cons e m ih =>
    rw [FMap.look_cons] at h
    split at h
    · rename_i hk
      injection h with h
      subst hk; subst h; simp
    · exact List.mem_cons_of_mem _ (ih h)

end Sys2Proof.Machine
end

