-- ==== Sys2Proof/Laws/Memory.lean ====
section
/-!
SUPPORT. The laws of memory: what a byte reads as after a write, and that every memory operation keeps the canonical form.
-/
namespace Sys2Proof.Machine

/-! ### Reading after writing -/

/-- A byte reads as what was written there, and every other byte as before. -/
theorem Memory.read_write (m : Memory) (a b : Nat) (v : Byte) :
    Memory.read (Memory.write m a v) b = if b = a then v else Memory.read m b := by
  unfold Memory.read Memory.write FMap.getD
  by_cases hv : v = Memory.unlisted
  · by_cases hb : b = a
    · subst hb; simp [hv]
    · simp [hv, hb, FMap.look_del_ne (α := Byte) m hb]
  · simp only [hv, if_false, FMap.look_put]
    by_cases hb : b = a <;> simp [hb]

@[simp] theorem Memory.read_write_self (m : Memory) (a : Nat) (v : Byte) : Memory.read (Memory.write m a v) a = v := by
  simp [Memory.read_write]

theorem Memory.read_write_ne (m : Memory) {a b : Nat} (v : Byte) (h : b ≠ a) :
    Memory.read (Memory.write m a v) b = Memory.read m b := by simp [Memory.read_write, h]

/-- Bytes outside a run written read as before. -/
theorem Memory.read_writeN_of_not_mem (m : Memory) (a b : Nat) (bs : List Byte) (h : b < a ∨ a + bs.length ≤ b) :
    Memory.read (Memory.writeN m a bs) b = Memory.read m b := by
  induction bs generalizing m a with
  | nil => rfl
  | cons v bs ih =>
    simp only [List.length_cons] at h
    rw [Memory.writeN, ih _ _ (by omega), Memory.read_write_ne]
    omega

/-- Byte k of a run written reads as the k-th of the bytes. -/
theorem Memory.read_writeN (m : Memory) (a k : Nat) (bs : List Byte) (h : k < bs.length) :
    Memory.read (Memory.writeN m a bs) (a + k) = bs[k] := by
  induction bs generalizing m a k with
  | nil => simp at h
  | cons v bs ih =>
    rw [Memory.writeN]
    cases k with
    | zero => rw [Memory.read_writeN_of_not_mem _ _ _ _ (by omega)]; simp
    | succ k =>
      have := ih (Memory.write m a v) (a + 1) k (by simpa using h)
      rw [show a + (k + 1) = a + 1 + k by omega, this]; simp

theorem Memory.readN_length (m : Memory) (a n : Nat) : (Memory.readN m a n).length = n := by
  induction n generalizing a with
  | zero => rfl
  | succ n ih => simp [Memory.readN, ih]

theorem Memory.readN_getElem (m : Memory) (a n k : Nat) (h : k < n) :
    (Memory.readN m a n)[k]'(by simpa [Memory.readN_length] using h) = Memory.read m (a + k) := by
  induction n generalizing a k with
  | zero => omega
  | succ n ih =>
    cases k with
    | zero => simp [Memory.readN]
    | succ k =>
      simp only [Memory.readN, List.getElem_cons_succ]
      rw [ih (a + 1) k (by omega)]
      congr 1; omega

/-- A run written reads back. -/
theorem Memory.readN_writeN (m : Memory) (a : Nat) (bs : List Byte) :
    Memory.readN (Memory.writeN m a bs) a bs.length = bs := by
  apply List.ext_getElem
  · simp [Memory.readN_length]
  · intro k h1 h2
    rw [Memory.readN_getElem _ _ _ _ h2, Memory.read_writeN]

/-! ### The canonical form -/

/-- Every address of the list is at least a bound. -/
def AboveAll (a : Nat) (m : Memory) : Prop := ∀ e ∈ m, a < e.1

theorem risingFrom_cons {e : Host.Cell} {m : Memory} (h : risingFrom (e :: m) = true) :
    risingFrom m = true ∧ AboveAll e.1 m := by
  induction m generalizing e with
  | nil => simp [risingFrom, AboveAll]
  | cons x m ih =>
    obtain ⟨a, y⟩ := e
    obtain ⟨b, z⟩ := x
    simp only [risingFrom, Bool.and_eq_true, decide_eq_true_eq] at h
    refine ⟨h.2, ?_⟩
    intro c hc
    rcases List.mem_cons.1 hc with rfl | hc
    · exact h.1
    · exact Nat.lt_trans h.1 ((ih h.2).2 c hc)

theorem risingFrom_of {e : Host.Cell} {m : Memory} (h : risingFrom m = true) (ha : AboveAll e.1 m) :
    risingFrom (e :: m) = true := by
  cases m with
  | nil => rfl
  | cons x m =>
    obtain ⟨a, y⟩ := e
    obtain ⟨b, z⟩ := x
    simp only [risingFrom, Bool.and_eq_true, decide_eq_true_eq]
    exact ⟨ha (b, z) (by simp), h⟩

theorem AboveAll_put {a k : Nat} {v : Byte} {m : Memory} (hm : AboveAll a m) (h : a < k) :
    AboveAll a (FMap.put (α := Byte) m k v) := FMap.all_put (P := fun e => a < e.1) hm h

theorem risingFrom_put {m : Memory} (h : risingFrom m = true) (k : Nat) (v : Byte) :
    risingFrom (FMap.put (α := Byte) m k v) = true := by
  induction m with
  | nil => rfl
  | cons e m ih =>
    obtain ⟨hm, ha⟩ := risingFrom_cons h
    unfold FMap.put
    split
    · subst_vars; exact risingFrom_of hm ha
    · split
      · exact risingFrom_of h (fun c hc => by
          rcases List.mem_cons.1 hc with rfl | hc
          · assumption
          · exact Nat.lt_trans (by assumption) (ha c hc))
      · exact risingFrom_of (ih hm) (AboveAll_put ha (by simp only at *; omega))

theorem risingFrom_filter {m : Memory} (h : risingFrom m = true) (p : Host.Cell → Bool) :
    risingFrom (m.filter p) = true := by
  induction m with
  | nil => rfl
  | cons e m ih =>
    obtain ⟨hm, ha⟩ := risingFrom_cons h
    rw [List.filter_cons]
    split
    · exact risingFrom_of (ih hm) (fun c hc => ha c (List.mem_filter.1 hc).1)
    · exact ih hm

theorem Memory.wf_iff {m : Memory} : Memory.wf m = true ↔ risingFrom m = true ∧ ∀ e ∈ m, e.2 ≠ Memory.unlisted := by
  simp [Memory.wf]

/-- Cells left out of a canonical memory leave it canonical. -/
theorem Memory.wf_filter {m : Memory} (h : Memory.wf m = true) (p : Host.Cell → Bool) : Memory.wf (m.filter p) = true := by
  rw [Memory.wf_iff] at *
  exact ⟨risingFrom_filter h.1 p, fun e he => h.2 e (List.mem_filter.1 he).1⟩

/-- A byte written keeps the canonical form. -/
theorem Memory.wf_write {m : Memory} (h : Memory.wf m = true) (a : Nat) (v : Byte) : Memory.wf (Memory.write m a v) = true := by
  unfold Memory.write
  split
  · exact Memory.wf_filter h _
  · rw [Memory.wf_iff] at *
    exact ⟨risingFrom_put h.1 a v, FMap.all_put (P := fun e => e.2 ≠ Memory.unlisted) h.2 (by assumption)⟩

/-- Bytes written keep the canonical form. -/
theorem Memory.wf_writeN {m : Memory} (h : Memory.wf m = true) (a : Nat) (bs : List Byte) :
    Memory.wf (Memory.writeN m a bs) = true := by
  induction bs generalizing m a with
  | nil => exact h
  | cons b bs ih => exact ih (Memory.wf_write h a b) _

/-- Bytes written one by one at any addresses keep the canonical form. -/
theorem Memory.wf_foldl {β : Type} (l : List β) (f : β → Nat × Byte) {m : Memory} (h : Memory.wf m = true) :
    Memory.wf (l.foldl (fun m x => Memory.write m (f x).1 (f x).2) m) = true := by
  induction l generalizing m with
  | nil => exact h
  | cons x l ih => exact ih (Memory.wf_write h _ _)

theorem State.reset_memoryOk : State.reset.MemoryOk := by decide

end Sys2Proof.Machine
end

