-- ==== Sys2Proof/Laws/State.lean ====
section
/-!
SUPPORT. What each named update of the state leaves as it is, field by field, and what it makes of the field it changes.
-/
namespace Sys2Proof.Machine

variable (s : State)

/-! `setCore` -/

@[simp] theorem State.setCore_mem (n : Nat) (c : Core) : (s.setCore n c).mem = s.mem := rfl
@[simp] theorem State.setCore_linePz (n : Nat) (c : Core) : (s.setCore n c).linePz = s.linePz := rfl
@[simp] theorem State.setCore_wakeBits (n : Nat) (c : Core) : (s.setCore n c).wakeBits = s.wakeBits := rfl
@[simp] theorem State.setCore_narrow (n : Nat) (c : Core) : (s.setCore n c).narrow = s.narrow := rfl
@[simp] theorem State.setCore_dtu (n : Nat) (c : Core) : (s.setCore n c).dtu = s.dtu := rfl
@[simp] theorem State.setCore_walks (n : Nat) (c : Core) : (s.setCore n c).walks = s.walks := rfl
@[simp] theorem State.setCore_fills (n : Nat) (c : Core) : (s.setCore n c).fills = s.fills := rfl
@[simp] theorem State.setCore_gops (n : Nat) (c : Core) : (s.setCore n c).gops = s.gops := rfl
@[simp] theorem State.setCore_copies (n : Nat) (c : Core) : (s.setCore n c).copies = s.copies := rfl
@[simp] theorem State.setCore_ovls (n : Nat) (c : Core) : (s.setCore n c).ovls = s.ovls := rfl
@[simp] theorem State.setCore_arrivals (n : Nat) (c : Core) : (s.setCore n c).arrivals = s.arrivals := rfl
@[simp] theorem State.setCore_moves (n : Nat) (c : Core) : (s.setCore n c).moves = s.moves := rfl
@[simp] theorem State.setCore_pcopies (n : Nat) (c : Core) : (s.setCore n c).pcopies = s.pcopies := rfl
@[simp] theorem State.setCore_blocks (n : Nat) (c : Core) : (s.setCore n c).blocks = s.blocks := rfl
@[simp] theorem State.setCore_vds (n : Nat) (c : Core) : (s.setCore n c).vds = s.vds := rfl
@[simp] theorem State.setCore_threads (n : Nat) (c : Core) : (s.setCore n c).threads = s.threads := rfl
@[simp] theorem State.setCore_gov (n : Nat) (c : Core) : (s.setCore n c).gov = s.gov := rfl
@[simp] theorem State.setCore_cpCyc (n : Nat) (c : Core) : (s.setCore n c).cpCyc = s.cpCyc := rfl
@[simp] theorem State.setCore_mgmt (n : Nat) (c : Core) : (s.setCore n c).mgmt = s.mgmt := rfl
@[simp] theorem State.setCore_agenda (n : Nat) (c : Core) : (s.setCore n c).agenda = s.agenda := rfl
@[simp] theorem State.setCore_cur (n : Nat) (c : Core) : (s.setCore n c).cur = s.cur := rfl
@[simp] theorem State.setCore_fresh (n : Nat) (c : Core) : (s.setCore n c).fresh = s.fresh := rfl
@[simp] theorem State.setCore_nextId (n : Nat) (c : Core) : (s.setCore n c).nextId = s.nextId := rfl
@[simp] theorem State.setCore_beat (n : Nat) (c : Core) : (s.setCore n c).beat = s.beat := rfl
@[simp] theorem State.setCore_round (n : Nat) (c : Core) : (s.setCore n c).round = s.round := rfl
@[simp] theorem State.setCore_clock (n : Nat) (c : Core) : (s.setCore n c).clock = s.clock := rfl

/-! `updCore` -/

@[simp] theorem State.updCore_mem (n : Nat) (f : Core → Core) : (s.updCore n f).mem = s.mem := rfl
@[simp] theorem State.updCore_linePz (n : Nat) (f : Core → Core) : (s.updCore n f).linePz = s.linePz := rfl
@[simp] theorem State.updCore_wakeBits (n : Nat) (f : Core → Core) : (s.updCore n f).wakeBits = s.wakeBits := rfl
@[simp] theorem State.updCore_narrow (n : Nat) (f : Core → Core) : (s.updCore n f).narrow = s.narrow := rfl
@[simp] theorem State.updCore_dtu (n : Nat) (f : Core → Core) : (s.updCore n f).dtu = s.dtu := rfl
@[simp] theorem State.updCore_walks (n : Nat) (f : Core → Core) : (s.updCore n f).walks = s.walks := rfl
@[simp] theorem State.updCore_fills (n : Nat) (f : Core → Core) : (s.updCore n f).fills = s.fills := rfl
@[simp] theorem State.updCore_gops (n : Nat) (f : Core → Core) : (s.updCore n f).gops = s.gops := rfl
@[simp] theorem State.updCore_copies (n : Nat) (f : Core → Core) : (s.updCore n f).copies = s.copies := rfl
@[simp] theorem State.updCore_ovls (n : Nat) (f : Core → Core) : (s.updCore n f).ovls = s.ovls := rfl
@[simp] theorem State.updCore_arrivals (n : Nat) (f : Core → Core) : (s.updCore n f).arrivals = s.arrivals := rfl
@[simp] theorem State.updCore_moves (n : Nat) (f : Core → Core) : (s.updCore n f).moves = s.moves := rfl
@[simp] theorem State.updCore_pcopies (n : Nat) (f : Core → Core) : (s.updCore n f).pcopies = s.pcopies := rfl
@[simp] theorem State.updCore_blocks (n : Nat) (f : Core → Core) : (s.updCore n f).blocks = s.blocks := rfl
@[simp] theorem State.updCore_vds (n : Nat) (f : Core → Core) : (s.updCore n f).vds = s.vds := rfl
@[simp] theorem State.updCore_threads (n : Nat) (f : Core → Core) : (s.updCore n f).threads = s.threads := rfl
@[simp] theorem State.updCore_gov (n : Nat) (f : Core → Core) : (s.updCore n f).gov = s.gov := rfl
@[simp] theorem State.updCore_cpCyc (n : Nat) (f : Core → Core) : (s.updCore n f).cpCyc = s.cpCyc := rfl
@[simp] theorem State.updCore_mgmt (n : Nat) (f : Core → Core) : (s.updCore n f).mgmt = s.mgmt := rfl
@[simp] theorem State.updCore_agenda (n : Nat) (f : Core → Core) : (s.updCore n f).agenda = s.agenda := rfl
@[simp] theorem State.updCore_cur (n : Nat) (f : Core → Core) : (s.updCore n f).cur = s.cur := rfl
@[simp] theorem State.updCore_fresh (n : Nat) (f : Core → Core) : (s.updCore n f).fresh = s.fresh := rfl
@[simp] theorem State.updCore_nextId (n : Nat) (f : Core → Core) : (s.updCore n f).nextId = s.nextId := rfl
@[simp] theorem State.updCore_beat (n : Nat) (f : Core → Core) : (s.updCore n f).beat = s.beat := rfl
@[simp] theorem State.updCore_round (n : Nat) (f : Core → Core) : (s.updCore n f).round = s.round := rfl
@[simp] theorem State.updCore_clock (n : Nat) (f : Core → Core) : (s.updCore n f).clock = s.clock := rfl

/-! `setBeam` -/

@[simp] theorem State.setBeam_mem (n k : Nat) (b : Beam) : (s.setBeam n k b).mem = s.mem := rfl
@[simp] theorem State.setBeam_linePz (n k : Nat) (b : Beam) : (s.setBeam n k b).linePz = s.linePz := rfl
@[simp] theorem State.setBeam_wakeBits (n k : Nat) (b : Beam) : (s.setBeam n k b).wakeBits = s.wakeBits := rfl
@[simp] theorem State.setBeam_narrow (n k : Nat) (b : Beam) : (s.setBeam n k b).narrow = s.narrow := rfl
@[simp] theorem State.setBeam_dtu (n k : Nat) (b : Beam) : (s.setBeam n k b).dtu = s.dtu := rfl
@[simp] theorem State.setBeam_walks (n k : Nat) (b : Beam) : (s.setBeam n k b).walks = s.walks := rfl
@[simp] theorem State.setBeam_fills (n k : Nat) (b : Beam) : (s.setBeam n k b).fills = s.fills := rfl
@[simp] theorem State.setBeam_gops (n k : Nat) (b : Beam) : (s.setBeam n k b).gops = s.gops := rfl
@[simp] theorem State.setBeam_copies (n k : Nat) (b : Beam) : (s.setBeam n k b).copies = s.copies := rfl
@[simp] theorem State.setBeam_ovls (n k : Nat) (b : Beam) : (s.setBeam n k b).ovls = s.ovls := rfl
@[simp] theorem State.setBeam_arrivals (n k : Nat) (b : Beam) : (s.setBeam n k b).arrivals = s.arrivals := rfl
@[simp] theorem State.setBeam_moves (n k : Nat) (b : Beam) : (s.setBeam n k b).moves = s.moves := rfl
@[simp] theorem State.setBeam_pcopies (n k : Nat) (b : Beam) : (s.setBeam n k b).pcopies = s.pcopies := rfl
@[simp] theorem State.setBeam_blocks (n k : Nat) (b : Beam) : (s.setBeam n k b).blocks = s.blocks := rfl
@[simp] theorem State.setBeam_vds (n k : Nat) (b : Beam) : (s.setBeam n k b).vds = s.vds := rfl
@[simp] theorem State.setBeam_threads (n k : Nat) (b : Beam) : (s.setBeam n k b).threads = s.threads := rfl
@[simp] theorem State.setBeam_gov (n k : Nat) (b : Beam) : (s.setBeam n k b).gov = s.gov := rfl
@[simp] theorem State.setBeam_cpCyc (n k : Nat) (b : Beam) : (s.setBeam n k b).cpCyc = s.cpCyc := rfl
@[simp] theorem State.setBeam_mgmt (n k : Nat) (b : Beam) : (s.setBeam n k b).mgmt = s.mgmt := rfl
@[simp] theorem State.setBeam_agenda (n k : Nat) (b : Beam) : (s.setBeam n k b).agenda = s.agenda := rfl
@[simp] theorem State.setBeam_cur (n k : Nat) (b : Beam) : (s.setBeam n k b).cur = s.cur := rfl
@[simp] theorem State.setBeam_fresh (n k : Nat) (b : Beam) : (s.setBeam n k b).fresh = s.fresh := rfl
@[simp] theorem State.setBeam_nextId (n k : Nat) (b : Beam) : (s.setBeam n k b).nextId = s.nextId := rfl
@[simp] theorem State.setBeam_beat (n k : Nat) (b : Beam) : (s.setBeam n k b).beat = s.beat := rfl
@[simp] theorem State.setBeam_round (n k : Nat) (b : Beam) : (s.setBeam n k b).round = s.round := rfl
@[simp] theorem State.setBeam_clock (n k : Nat) (b : Beam) : (s.setBeam n k b).clock = s.clock := rfl

/-! `updBeam` -/

@[simp] theorem State.updBeam_mem (n k : Nat) (f : Beam → Beam) : (s.updBeam n k f).mem = s.mem := rfl
@[simp] theorem State.updBeam_linePz (n k : Nat) (f : Beam → Beam) : (s.updBeam n k f).linePz = s.linePz := rfl
@[simp] theorem State.updBeam_wakeBits (n k : Nat) (f : Beam → Beam) : (s.updBeam n k f).wakeBits = s.wakeBits := rfl
@[simp] theorem State.updBeam_narrow (n k : Nat) (f : Beam → Beam) : (s.updBeam n k f).narrow = s.narrow := rfl
@[simp] theorem State.updBeam_dtu (n k : Nat) (f : Beam → Beam) : (s.updBeam n k f).dtu = s.dtu := rfl
@[simp] theorem State.updBeam_walks (n k : Nat) (f : Beam → Beam) : (s.updBeam n k f).walks = s.walks := rfl
@[simp] theorem State.updBeam_fills (n k : Nat) (f : Beam → Beam) : (s.updBeam n k f).fills = s.fills := rfl
@[simp] theorem State.updBeam_gops (n k : Nat) (f : Beam → Beam) : (s.updBeam n k f).gops = s.gops := rfl
@[simp] theorem State.updBeam_copies (n k : Nat) (f : Beam → Beam) : (s.updBeam n k f).copies = s.copies := rfl
@[simp] theorem State.updBeam_ovls (n k : Nat) (f : Beam → Beam) : (s.updBeam n k f).ovls = s.ovls := rfl
@[simp] theorem State.updBeam_arrivals (n k : Nat) (f : Beam → Beam) : (s.updBeam n k f).arrivals = s.arrivals := rfl
@[simp] theorem State.updBeam_moves (n k : Nat) (f : Beam → Beam) : (s.updBeam n k f).moves = s.moves := rfl
@[simp] theorem State.updBeam_pcopies (n k : Nat) (f : Beam → Beam) : (s.updBeam n k f).pcopies = s.pcopies := rfl
@[simp] theorem State.updBeam_blocks (n k : Nat) (f : Beam → Beam) : (s.updBeam n k f).blocks = s.blocks := rfl
@[simp] theorem State.updBeam_vds (n k : Nat) (f : Beam → Beam) : (s.updBeam n k f).vds = s.vds := rfl
@[simp] theorem State.updBeam_threads (n k : Nat) (f : Beam → Beam) : (s.updBeam n k f).threads = s.threads := rfl
@[simp] theorem State.updBeam_gov (n k : Nat) (f : Beam → Beam) : (s.updBeam n k f).gov = s.gov := rfl
@[simp] theorem State.updBeam_cpCyc (n k : Nat) (f : Beam → Beam) : (s.updBeam n k f).cpCyc = s.cpCyc := rfl
@[simp] theorem State.updBeam_mgmt (n k : Nat) (f : Beam → Beam) : (s.updBeam n k f).mgmt = s.mgmt := rfl
@[simp] theorem State.updBeam_agenda (n k : Nat) (f : Beam → Beam) : (s.updBeam n k f).agenda = s.agenda := rfl
@[simp] theorem State.updBeam_cur (n k : Nat) (f : Beam → Beam) : (s.updBeam n k f).cur = s.cur := rfl
@[simp] theorem State.updBeam_fresh (n k : Nat) (f : Beam → Beam) : (s.updBeam n k f).fresh = s.fresh := rfl
@[simp] theorem State.updBeam_nextId (n k : Nat) (f : Beam → Beam) : (s.updBeam n k f).nextId = s.nextId := rfl
@[simp] theorem State.updBeam_beat (n k : Nat) (f : Beam → Beam) : (s.updBeam n k f).beat = s.beat := rfl
@[simp] theorem State.updBeam_round (n k : Nat) (f : Beam → Beam) : (s.updBeam n k f).round = s.round := rfl
@[simp] theorem State.updBeam_clock (n k : Nat) (f : Beam → Beam) : (s.updBeam n k f).clock = s.clock := rfl

/-! `updBeams` -/

@[simp] theorem State.updBeams_mem (n : Nat) (r : Option Nat) (f : Beam → Beam) : (s.updBeams n r f).mem = s.mem := rfl
@[simp] theorem State.updBeams_linePz (n : Nat) (r : Option Nat) (f : Beam → Beam) : (s.updBeams n r f).linePz = s.linePz := rfl
@[simp] theorem State.updBeams_wakeBits (n : Nat) (r : Option Nat) (f : Beam → Beam) : (s.updBeams n r f).wakeBits = s.wakeBits := rfl
@[simp] theorem State.updBeams_narrow (n : Nat) (r : Option Nat) (f : Beam → Beam) : (s.updBeams n r f).narrow = s.narrow := rfl
@[simp] theorem State.updBeams_dtu (n : Nat) (r : Option Nat) (f : Beam → Beam) : (s.updBeams n r f).dtu = s.dtu := rfl
@[simp] theorem State.updBeams_walks (n : Nat) (r : Option Nat) (f : Beam → Beam) : (s.updBeams n r f).walks = s.walks := rfl
@[simp] theorem State.updBeams_fills (n : Nat) (r : Option Nat) (f : Beam → Beam) : (s.updBeams n r f).fills = s.fills := rfl
@[simp] theorem State.updBeams_gops (n : Nat) (r : Option Nat) (f : Beam → Beam) : (s.updBeams n r f).gops = s.gops := rfl
@[simp] theorem State.updBeams_copies (n : Nat) (r : Option Nat) (f : Beam → Beam) : (s.updBeams n r f).copies = s.copies := rfl
@[simp] theorem State.updBeams_ovls (n : Nat) (r : Option Nat) (f : Beam → Beam) : (s.updBeams n r f).ovls = s.ovls := rfl
@[simp] theorem State.updBeams_arrivals (n : Nat) (r : Option Nat) (f : Beam → Beam) : (s.updBeams n r f).arrivals = s.arrivals := rfl
@[simp] theorem State.updBeams_moves (n : Nat) (r : Option Nat) (f : Beam → Beam) : (s.updBeams n r f).moves = s.moves := rfl
@[simp] theorem State.updBeams_pcopies (n : Nat) (r : Option Nat) (f : Beam → Beam) : (s.updBeams n r f).pcopies = s.pcopies := rfl
@[simp] theorem State.updBeams_blocks (n : Nat) (r : Option Nat) (f : Beam → Beam) : (s.updBeams n r f).blocks = s.blocks := rfl
@[simp] theorem State.updBeams_vds (n : Nat) (r : Option Nat) (f : Beam → Beam) : (s.updBeams n r f).vds = s.vds := rfl
@[simp] theorem State.updBeams_threads (n : Nat) (r : Option Nat) (f : Beam → Beam) : (s.updBeams n r f).threads = s.threads := rfl
@[simp] theorem State.updBeams_gov (n : Nat) (r : Option Nat) (f : Beam → Beam) : (s.updBeams n r f).gov = s.gov := rfl
@[simp] theorem State.updBeams_cpCyc (n : Nat) (r : Option Nat) (f : Beam → Beam) : (s.updBeams n r f).cpCyc = s.cpCyc := rfl
@[simp] theorem State.updBeams_mgmt (n : Nat) (r : Option Nat) (f : Beam → Beam) : (s.updBeams n r f).mgmt = s.mgmt := rfl
@[simp] theorem State.updBeams_agenda (n : Nat) (r : Option Nat) (f : Beam → Beam) : (s.updBeams n r f).agenda = s.agenda := rfl
@[simp] theorem State.updBeams_cur (n : Nat) (r : Option Nat) (f : Beam → Beam) : (s.updBeams n r f).cur = s.cur := rfl
@[simp] theorem State.updBeams_fresh (n : Nat) (r : Option Nat) (f : Beam → Beam) : (s.updBeams n r f).fresh = s.fresh := rfl
@[simp] theorem State.updBeams_nextId (n : Nat) (r : Option Nat) (f : Beam → Beam) : (s.updBeams n r f).nextId = s.nextId := rfl
@[simp] theorem State.updBeams_beat (n : Nat) (r : Option Nat) (f : Beam → Beam) : (s.updBeams n r f).beat = s.beat := rfl
@[simp] theorem State.updBeams_round (n : Nat) (r : Option Nat) (f : Beam → Beam) : (s.updBeams n r f).round = s.round := rfl
@[simp] theorem State.updBeams_clock (n : Nat) (r : Option Nat) (f : Beam → Beam) : (s.updBeams n r f).clock = s.clock := rfl

/-! `undrain` -/

@[simp] theorem State.undrain_mem (r : BeamRef) (k : Nat) : (s.undrain r k).mem = s.mem := rfl
@[simp] theorem State.undrain_linePz (r : BeamRef) (k : Nat) : (s.undrain r k).linePz = s.linePz := rfl
@[simp] theorem State.undrain_wakeBits (r : BeamRef) (k : Nat) : (s.undrain r k).wakeBits = s.wakeBits := rfl
@[simp] theorem State.undrain_narrow (r : BeamRef) (k : Nat) : (s.undrain r k).narrow = s.narrow := rfl
@[simp] theorem State.undrain_dtu (r : BeamRef) (k : Nat) : (s.undrain r k).dtu = s.dtu := rfl
@[simp] theorem State.undrain_walks (r : BeamRef) (k : Nat) : (s.undrain r k).walks = s.walks := rfl
@[simp] theorem State.undrain_fills (r : BeamRef) (k : Nat) : (s.undrain r k).fills = s.fills := rfl
@[simp] theorem State.undrain_gops (r : BeamRef) (k : Nat) : (s.undrain r k).gops = s.gops := rfl
@[simp] theorem State.undrain_copies (r : BeamRef) (k : Nat) : (s.undrain r k).copies = s.copies := rfl
@[simp] theorem State.undrain_ovls (r : BeamRef) (k : Nat) : (s.undrain r k).ovls = s.ovls := rfl
@[simp] theorem State.undrain_arrivals (r : BeamRef) (k : Nat) : (s.undrain r k).arrivals = s.arrivals := rfl
@[simp] theorem State.undrain_moves (r : BeamRef) (k : Nat) : (s.undrain r k).moves = s.moves := rfl
@[simp] theorem State.undrain_pcopies (r : BeamRef) (k : Nat) : (s.undrain r k).pcopies = s.pcopies := rfl
@[simp] theorem State.undrain_blocks (r : BeamRef) (k : Nat) : (s.undrain r k).blocks = s.blocks := rfl
@[simp] theorem State.undrain_vds (r : BeamRef) (k : Nat) : (s.undrain r k).vds = s.vds := rfl
@[simp] theorem State.undrain_threads (r : BeamRef) (k : Nat) : (s.undrain r k).threads = s.threads := rfl
@[simp] theorem State.undrain_gov (r : BeamRef) (k : Nat) : (s.undrain r k).gov = s.gov := rfl
@[simp] theorem State.undrain_cpCyc (r : BeamRef) (k : Nat) : (s.undrain r k).cpCyc = s.cpCyc := rfl
@[simp] theorem State.undrain_mgmt (r : BeamRef) (k : Nat) : (s.undrain r k).mgmt = s.mgmt := rfl
@[simp] theorem State.undrain_agenda (r : BeamRef) (k : Nat) : (s.undrain r k).agenda = s.agenda := rfl
@[simp] theorem State.undrain_cur (r : BeamRef) (k : Nat) : (s.undrain r k).cur = s.cur := rfl
@[simp] theorem State.undrain_fresh (r : BeamRef) (k : Nat) : (s.undrain r k).fresh = s.fresh := rfl
@[simp] theorem State.undrain_nextId (r : BeamRef) (k : Nat) : (s.undrain r k).nextId = s.nextId := rfl
@[simp] theorem State.undrain_beat (r : BeamRef) (k : Nat) : (s.undrain r k).beat = s.beat := rfl
@[simp] theorem State.undrain_round (r : BeamRef) (k : Nat) : (s.undrain r k).round = s.round := rfl
@[simp] theorem State.undrain_clock (r : BeamRef) (k : Nat) : (s.undrain r k).clock = s.clock := rfl

/-! `updVd` -/

@[simp] theorem State.updVd_cores (v : Nat) (f : VDev → VDev) : (s.updVd v f).cores = s.cores := rfl
@[simp] theorem State.updVd_mem (v : Nat) (f : VDev → VDev) : (s.updVd v f).mem = s.mem := rfl
@[simp] theorem State.updVd_linePz (v : Nat) (f : VDev → VDev) : (s.updVd v f).linePz = s.linePz := rfl
@[simp] theorem State.updVd_wakeBits (v : Nat) (f : VDev → VDev) : (s.updVd v f).wakeBits = s.wakeBits := rfl
@[simp] theorem State.updVd_narrow (v : Nat) (f : VDev → VDev) : (s.updVd v f).narrow = s.narrow := rfl
@[simp] theorem State.updVd_dtu (v : Nat) (f : VDev → VDev) : (s.updVd v f).dtu = s.dtu := rfl
@[simp] theorem State.updVd_walks (v : Nat) (f : VDev → VDev) : (s.updVd v f).walks = s.walks := rfl
@[simp] theorem State.updVd_fills (v : Nat) (f : VDev → VDev) : (s.updVd v f).fills = s.fills := rfl
@[simp] theorem State.updVd_gops (v : Nat) (f : VDev → VDev) : (s.updVd v f).gops = s.gops := rfl
@[simp] theorem State.updVd_copies (v : Nat) (f : VDev → VDev) : (s.updVd v f).copies = s.copies := rfl
@[simp] theorem State.updVd_ovls (v : Nat) (f : VDev → VDev) : (s.updVd v f).ovls = s.ovls := rfl
@[simp] theorem State.updVd_arrivals (v : Nat) (f : VDev → VDev) : (s.updVd v f).arrivals = s.arrivals := rfl
@[simp] theorem State.updVd_moves (v : Nat) (f : VDev → VDev) : (s.updVd v f).moves = s.moves := rfl
@[simp] theorem State.updVd_pcopies (v : Nat) (f : VDev → VDev) : (s.updVd v f).pcopies = s.pcopies := rfl
@[simp] theorem State.updVd_blocks (v : Nat) (f : VDev → VDev) : (s.updVd v f).blocks = s.blocks := rfl
@[simp] theorem State.updVd_threads (v : Nat) (f : VDev → VDev) : (s.updVd v f).threads = s.threads := rfl
@[simp] theorem State.updVd_gov (v : Nat) (f : VDev → VDev) : (s.updVd v f).gov = s.gov := rfl
@[simp] theorem State.updVd_cpCyc (v : Nat) (f : VDev → VDev) : (s.updVd v f).cpCyc = s.cpCyc := rfl
@[simp] theorem State.updVd_mgmt (v : Nat) (f : VDev → VDev) : (s.updVd v f).mgmt = s.mgmt := rfl
@[simp] theorem State.updVd_agenda (v : Nat) (f : VDev → VDev) : (s.updVd v f).agenda = s.agenda := rfl
@[simp] theorem State.updVd_cur (v : Nat) (f : VDev → VDev) : (s.updVd v f).cur = s.cur := rfl
@[simp] theorem State.updVd_fresh (v : Nat) (f : VDev → VDev) : (s.updVd v f).fresh = s.fresh := rfl
@[simp] theorem State.updVd_nextId (v : Nat) (f : VDev → VDev) : (s.updVd v f).nextId = s.nextId := rfl
@[simp] theorem State.updVd_beat (v : Nat) (f : VDev → VDev) : (s.updVd v f).beat = s.beat := rfl
@[simp] theorem State.updVd_round (v : Nat) (f : VDev → VDev) : (s.updVd v f).round = s.round := rfl
@[simp] theorem State.updVd_clock (v : Nat) (f : VDev → VDev) : (s.updVd v f).clock = s.clock := rfl

/-! `updLaunch` -/

@[simp] theorem State.updLaunch_cores (v l : Nat) (f : Launch → Launch) : (s.updLaunch v l f).cores = s.cores := rfl
@[simp] theorem State.updLaunch_mem (v l : Nat) (f : Launch → Launch) : (s.updLaunch v l f).mem = s.mem := rfl
@[simp] theorem State.updLaunch_linePz (v l : Nat) (f : Launch → Launch) : (s.updLaunch v l f).linePz = s.linePz := rfl
@[simp] theorem State.updLaunch_wakeBits (v l : Nat) (f : Launch → Launch) : (s.updLaunch v l f).wakeBits = s.wakeBits := rfl
@[simp] theorem State.updLaunch_narrow (v l : Nat) (f : Launch → Launch) : (s.updLaunch v l f).narrow = s.narrow := rfl
@[simp] theorem State.updLaunch_dtu (v l : Nat) (f : Launch → Launch) : (s.updLaunch v l f).dtu = s.dtu := rfl
@[simp] theorem State.updLaunch_walks (v l : Nat) (f : Launch → Launch) : (s.updLaunch v l f).walks = s.walks := rfl
@[simp] theorem State.updLaunch_fills (v l : Nat) (f : Launch → Launch) : (s.updLaunch v l f).fills = s.fills := rfl
@[simp] theorem State.updLaunch_gops (v l : Nat) (f : Launch → Launch) : (s.updLaunch v l f).gops = s.gops := rfl
@[simp] theorem State.updLaunch_copies (v l : Nat) (f : Launch → Launch) : (s.updLaunch v l f).copies = s.copies := rfl
@[simp] theorem State.updLaunch_ovls (v l : Nat) (f : Launch → Launch) : (s.updLaunch v l f).ovls = s.ovls := rfl
@[simp] theorem State.updLaunch_arrivals (v l : Nat) (f : Launch → Launch) : (s.updLaunch v l f).arrivals = s.arrivals := rfl
@[simp] theorem State.updLaunch_moves (v l : Nat) (f : Launch → Launch) : (s.updLaunch v l f).moves = s.moves := rfl
@[simp] theorem State.updLaunch_pcopies (v l : Nat) (f : Launch → Launch) : (s.updLaunch v l f).pcopies = s.pcopies := rfl
@[simp] theorem State.updLaunch_blocks (v l : Nat) (f : Launch → Launch) : (s.updLaunch v l f).blocks = s.blocks := rfl
@[simp] theorem State.updLaunch_threads (v l : Nat) (f : Launch → Launch) : (s.updLaunch v l f).threads = s.threads := rfl
@[simp] theorem State.updLaunch_gov (v l : Nat) (f : Launch → Launch) : (s.updLaunch v l f).gov = s.gov := rfl
@[simp] theorem State.updLaunch_cpCyc (v l : Nat) (f : Launch → Launch) : (s.updLaunch v l f).cpCyc = s.cpCyc := rfl
@[simp] theorem State.updLaunch_mgmt (v l : Nat) (f : Launch → Launch) : (s.updLaunch v l f).mgmt = s.mgmt := rfl
@[simp] theorem State.updLaunch_agenda (v l : Nat) (f : Launch → Launch) : (s.updLaunch v l f).agenda = s.agenda := rfl
@[simp] theorem State.updLaunch_cur (v l : Nat) (f : Launch → Launch) : (s.updLaunch v l f).cur = s.cur := rfl
@[simp] theorem State.updLaunch_fresh (v l : Nat) (f : Launch → Launch) : (s.updLaunch v l f).fresh = s.fresh := rfl
@[simp] theorem State.updLaunch_nextId (v l : Nat) (f : Launch → Launch) : (s.updLaunch v l f).nextId = s.nextId := rfl
@[simp] theorem State.updLaunch_beat (v l : Nat) (f : Launch → Launch) : (s.updLaunch v l f).beat = s.beat := rfl
@[simp] theorem State.updLaunch_round (v l : Nat) (f : Launch → Launch) : (s.updLaunch v l f).round = s.round := rfl
@[simp] theorem State.updLaunch_clock (v l : Nat) (f : Launch → Launch) : (s.updLaunch v l f).clock = s.clock := rfl

/-! `updQueue` -/

@[simp] theorem State.updQueue_cores (v q : Nat) (f : Queue → Queue) : (s.updQueue v q f).cores = s.cores := rfl
@[simp] theorem State.updQueue_mem (v q : Nat) (f : Queue → Queue) : (s.updQueue v q f).mem = s.mem := rfl
@[simp] theorem State.updQueue_linePz (v q : Nat) (f : Queue → Queue) : (s.updQueue v q f).linePz = s.linePz := rfl
@[simp] theorem State.updQueue_wakeBits (v q : Nat) (f : Queue → Queue) : (s.updQueue v q f).wakeBits = s.wakeBits := rfl
@[simp] theorem State.updQueue_narrow (v q : Nat) (f : Queue → Queue) : (s.updQueue v q f).narrow = s.narrow := rfl
@[simp] theorem State.updQueue_dtu (v q : Nat) (f : Queue → Queue) : (s.updQueue v q f).dtu = s.dtu := rfl
@[simp] theorem State.updQueue_walks (v q : Nat) (f : Queue → Queue) : (s.updQueue v q f).walks = s.walks := rfl
@[simp] theorem State.updQueue_fills (v q : Nat) (f : Queue → Queue) : (s.updQueue v q f).fills = s.fills := rfl
@[simp] theorem State.updQueue_gops (v q : Nat) (f : Queue → Queue) : (s.updQueue v q f).gops = s.gops := rfl
@[simp] theorem State.updQueue_copies (v q : Nat) (f : Queue → Queue) : (s.updQueue v q f).copies = s.copies := rfl
@[simp] theorem State.updQueue_ovls (v q : Nat) (f : Queue → Queue) : (s.updQueue v q f).ovls = s.ovls := rfl
@[simp] theorem State.updQueue_arrivals (v q : Nat) (f : Queue → Queue) : (s.updQueue v q f).arrivals = s.arrivals := rfl
@[simp] theorem State.updQueue_moves (v q : Nat) (f : Queue → Queue) : (s.updQueue v q f).moves = s.moves := rfl
@[simp] theorem State.updQueue_pcopies (v q : Nat) (f : Queue → Queue) : (s.updQueue v q f).pcopies = s.pcopies := rfl
@[simp] theorem State.updQueue_blocks (v q : Nat) (f : Queue → Queue) : (s.updQueue v q f).blocks = s.blocks := rfl
@[simp] theorem State.updQueue_threads (v q : Nat) (f : Queue → Queue) : (s.updQueue v q f).threads = s.threads := rfl
@[simp] theorem State.updQueue_gov (v q : Nat) (f : Queue → Queue) : (s.updQueue v q f).gov = s.gov := rfl
@[simp] theorem State.updQueue_cpCyc (v q : Nat) (f : Queue → Queue) : (s.updQueue v q f).cpCyc = s.cpCyc := rfl
@[simp] theorem State.updQueue_mgmt (v q : Nat) (f : Queue → Queue) : (s.updQueue v q f).mgmt = s.mgmt := rfl
@[simp] theorem State.updQueue_agenda (v q : Nat) (f : Queue → Queue) : (s.updQueue v q f).agenda = s.agenda := rfl
@[simp] theorem State.updQueue_cur (v q : Nat) (f : Queue → Queue) : (s.updQueue v q f).cur = s.cur := rfl
@[simp] theorem State.updQueue_fresh (v q : Nat) (f : Queue → Queue) : (s.updQueue v q f).fresh = s.fresh := rfl
@[simp] theorem State.updQueue_nextId (v q : Nat) (f : Queue → Queue) : (s.updQueue v q f).nextId = s.nextId := rfl
@[simp] theorem State.updQueue_beat (v q : Nat) (f : Queue → Queue) : (s.updQueue v q f).beat = s.beat := rfl
@[simp] theorem State.updQueue_round (v q : Nat) (f : Queue → Queue) : (s.updQueue v q f).round = s.round := rfl
@[simp] theorem State.updQueue_clock (v q : Nat) (f : Queue → Queue) : (s.updQueue v q f).clock = s.clock := rfl

/-! `noteOverlay` -/

@[simp] theorem State.noteOverlay_cores (v l o : Nat) (d : BitVec 512) : (s.noteOverlay v l o d).cores = s.cores := rfl
@[simp] theorem State.noteOverlay_mem (v l o : Nat) (d : BitVec 512) : (s.noteOverlay v l o d).mem = s.mem := rfl
@[simp] theorem State.noteOverlay_linePz (v l o : Nat) (d : BitVec 512) : (s.noteOverlay v l o d).linePz = s.linePz := rfl
@[simp] theorem State.noteOverlay_wakeBits (v l o : Nat) (d : BitVec 512) : (s.noteOverlay v l o d).wakeBits = s.wakeBits := rfl
@[simp] theorem State.noteOverlay_narrow (v l o : Nat) (d : BitVec 512) : (s.noteOverlay v l o d).narrow = s.narrow := rfl
@[simp] theorem State.noteOverlay_dtu (v l o : Nat) (d : BitVec 512) : (s.noteOverlay v l o d).dtu = s.dtu := rfl
@[simp] theorem State.noteOverlay_walks (v l o : Nat) (d : BitVec 512) : (s.noteOverlay v l o d).walks = s.walks := rfl
@[simp] theorem State.noteOverlay_fills (v l o : Nat) (d : BitVec 512) : (s.noteOverlay v l o d).fills = s.fills := rfl
@[simp] theorem State.noteOverlay_gops (v l o : Nat) (d : BitVec 512) : (s.noteOverlay v l o d).gops = s.gops := rfl
@[simp] theorem State.noteOverlay_copies (v l o : Nat) (d : BitVec 512) : (s.noteOverlay v l o d).copies = s.copies := rfl
@[simp] theorem State.noteOverlay_ovls (v l o : Nat) (d : BitVec 512) : (s.noteOverlay v l o d).ovls = s.ovls := rfl
@[simp] theorem State.noteOverlay_arrivals (v l o : Nat) (d : BitVec 512) : (s.noteOverlay v l o d).arrivals = s.arrivals := rfl
@[simp] theorem State.noteOverlay_moves (v l o : Nat) (d : BitVec 512) : (s.noteOverlay v l o d).moves = s.moves := rfl
@[simp] theorem State.noteOverlay_pcopies (v l o : Nat) (d : BitVec 512) : (s.noteOverlay v l o d).pcopies = s.pcopies := rfl
@[simp] theorem State.noteOverlay_blocks (v l o : Nat) (d : BitVec 512) : (s.noteOverlay v l o d).blocks = s.blocks := rfl
@[simp] theorem State.noteOverlay_threads (v l o : Nat) (d : BitVec 512) : (s.noteOverlay v l o d).threads = s.threads := rfl
@[simp] theorem State.noteOverlay_gov (v l o : Nat) (d : BitVec 512) : (s.noteOverlay v l o d).gov = s.gov := rfl
@[simp] theorem State.noteOverlay_cpCyc (v l o : Nat) (d : BitVec 512) : (s.noteOverlay v l o d).cpCyc = s.cpCyc := rfl
@[simp] theorem State.noteOverlay_mgmt (v l o : Nat) (d : BitVec 512) : (s.noteOverlay v l o d).mgmt = s.mgmt := rfl
@[simp] theorem State.noteOverlay_agenda (v l o : Nat) (d : BitVec 512) : (s.noteOverlay v l o d).agenda = s.agenda := rfl
@[simp] theorem State.noteOverlay_cur (v l o : Nat) (d : BitVec 512) : (s.noteOverlay v l o d).cur = s.cur := rfl
@[simp] theorem State.noteOverlay_fresh (v l o : Nat) (d : BitVec 512) : (s.noteOverlay v l o d).fresh = s.fresh := rfl
@[simp] theorem State.noteOverlay_nextId (v l o : Nat) (d : BitVec 512) : (s.noteOverlay v l o d).nextId = s.nextId := rfl
@[simp] theorem State.noteOverlay_beat (v l o : Nat) (d : BitVec 512) : (s.noteOverlay v l o d).beat = s.beat := rfl
@[simp] theorem State.noteOverlay_round (v l o : Nat) (d : BitVec 512) : (s.noteOverlay v l o d).round = s.round := rfl
@[simp] theorem State.noteOverlay_clock (v l o : Nat) (d : BitVec 512) : (s.noteOverlay v l o d).clock = s.clock := rfl

/-! `noteIssue` -/

@[simp] theorem State.noteIssue_cores (x : Iss) : (s.noteIssue x).cores = s.cores := by unfold State.noteIssue; split <;> rfl
@[simp] theorem State.noteIssue_mem (x : Iss) : (s.noteIssue x).mem = s.mem := by unfold State.noteIssue; split <;> rfl
@[simp] theorem State.noteIssue_linePz (x : Iss) : (s.noteIssue x).linePz = s.linePz := by unfold State.noteIssue; split <;> rfl
@[simp] theorem State.noteIssue_wakeBits (x : Iss) : (s.noteIssue x).wakeBits = s.wakeBits := by unfold State.noteIssue; split <;> rfl
@[simp] theorem State.noteIssue_narrow (x : Iss) : (s.noteIssue x).narrow = s.narrow := by unfold State.noteIssue; split <;> rfl
@[simp] theorem State.noteIssue_dtu (x : Iss) : (s.noteIssue x).dtu = s.dtu := by unfold State.noteIssue; split <;> rfl
@[simp] theorem State.noteIssue_walks (x : Iss) : (s.noteIssue x).walks = s.walks := by unfold State.noteIssue; split <;> rfl
@[simp] theorem State.noteIssue_fills (x : Iss) : (s.noteIssue x).fills = s.fills := by unfold State.noteIssue; split <;> rfl
@[simp] theorem State.noteIssue_gops (x : Iss) : (s.noteIssue x).gops = s.gops := by unfold State.noteIssue; split <;> rfl
@[simp] theorem State.noteIssue_copies (x : Iss) : (s.noteIssue x).copies = s.copies := by unfold State.noteIssue; split <;> rfl
@[simp] theorem State.noteIssue_ovls (x : Iss) : (s.noteIssue x).ovls = s.ovls := by unfold State.noteIssue; split <;> rfl
@[simp] theorem State.noteIssue_arrivals (x : Iss) : (s.noteIssue x).arrivals = s.arrivals := by unfold State.noteIssue; split <;> rfl
@[simp] theorem State.noteIssue_moves (x : Iss) : (s.noteIssue x).moves = s.moves := by unfold State.noteIssue; split <;> rfl
@[simp] theorem State.noteIssue_pcopies (x : Iss) : (s.noteIssue x).pcopies = s.pcopies := by unfold State.noteIssue; split <;> rfl
@[simp] theorem State.noteIssue_blocks (x : Iss) : (s.noteIssue x).blocks = s.blocks := by unfold State.noteIssue; split <;> rfl
@[simp] theorem State.noteIssue_threads (x : Iss) : (s.noteIssue x).threads = s.threads := by unfold State.noteIssue; split <;> rfl
@[simp] theorem State.noteIssue_gov (x : Iss) : (s.noteIssue x).gov = s.gov := by unfold State.noteIssue; split <;> rfl
@[simp] theorem State.noteIssue_cpCyc (x : Iss) : (s.noteIssue x).cpCyc = s.cpCyc := by unfold State.noteIssue; split <;> rfl
@[simp] theorem State.noteIssue_mgmt (x : Iss) : (s.noteIssue x).mgmt = s.mgmt := by unfold State.noteIssue; split <;> rfl
@[simp] theorem State.noteIssue_agenda (x : Iss) : (s.noteIssue x).agenda = s.agenda := by unfold State.noteIssue; split <;> rfl
@[simp] theorem State.noteIssue_cur (x : Iss) : (s.noteIssue x).cur = s.cur := by unfold State.noteIssue; split <;> rfl
@[simp] theorem State.noteIssue_fresh (x : Iss) : (s.noteIssue x).fresh = s.fresh := by unfold State.noteIssue; split <;> rfl
@[simp] theorem State.noteIssue_nextId (x : Iss) : (s.noteIssue x).nextId = s.nextId := by unfold State.noteIssue; split <;> rfl
@[simp] theorem State.noteIssue_beat (x : Iss) : (s.noteIssue x).beat = s.beat := by unfold State.noteIssue; split <;> rfl
@[simp] theorem State.noteIssue_round (x : Iss) : (s.noteIssue x).round = s.round := by unfold State.noteIssue; split <;> rfl
@[simp] theorem State.noteIssue_clock (x : Iss) : (s.noteIssue x).clock = s.clock := by unfold State.noteIssue; split <;> rfl

/-! `giveUp` -/

@[simp] theorem State.giveUp_mem (x : Iss) (p : Older → Bool) : (s.giveUp x p).mem = s.mem := rfl
@[simp] theorem State.giveUp_linePz (x : Iss) (p : Older → Bool) : (s.giveUp x p).linePz = s.linePz := rfl
@[simp] theorem State.giveUp_wakeBits (x : Iss) (p : Older → Bool) : (s.giveUp x p).wakeBits = s.wakeBits := rfl
@[simp] theorem State.giveUp_narrow (x : Iss) (p : Older → Bool) : (s.giveUp x p).narrow = s.narrow := rfl
@[simp] theorem State.giveUp_dtu (x : Iss) (p : Older → Bool) : (s.giveUp x p).dtu = s.dtu := rfl
@[simp] theorem State.giveUp_walks (x : Iss) (p : Older → Bool) : (s.giveUp x p).walks = s.walks := rfl
@[simp] theorem State.giveUp_fills (x : Iss) (p : Older → Bool) : (s.giveUp x p).fills = s.fills := rfl
@[simp] theorem State.giveUp_gops (x : Iss) (p : Older → Bool) : (s.giveUp x p).gops = s.gops := rfl
@[simp] theorem State.giveUp_copies (x : Iss) (p : Older → Bool) : (s.giveUp x p).copies = s.copies := rfl
@[simp] theorem State.giveUp_ovls (x : Iss) (p : Older → Bool) : (s.giveUp x p).ovls = s.ovls := rfl
@[simp] theorem State.giveUp_arrivals (x : Iss) (p : Older → Bool) : (s.giveUp x p).arrivals = s.arrivals := rfl
@[simp] theorem State.giveUp_moves (x : Iss) (p : Older → Bool) : (s.giveUp x p).moves = s.moves := rfl
@[simp] theorem State.giveUp_pcopies (x : Iss) (p : Older → Bool) : (s.giveUp x p).pcopies = s.pcopies := rfl
@[simp] theorem State.giveUp_blocks (x : Iss) (p : Older → Bool) : (s.giveUp x p).blocks = s.blocks := rfl
@[simp] theorem State.giveUp_vds (x : Iss) (p : Older → Bool) : (s.giveUp x p).vds = s.vds := rfl
@[simp] theorem State.giveUp_threads (x : Iss) (p : Older → Bool) : (s.giveUp x p).threads = s.threads := rfl
@[simp] theorem State.giveUp_gov (x : Iss) (p : Older → Bool) : (s.giveUp x p).gov = s.gov := rfl
@[simp] theorem State.giveUp_cpCyc (x : Iss) (p : Older → Bool) : (s.giveUp x p).cpCyc = s.cpCyc := rfl
@[simp] theorem State.giveUp_mgmt (x : Iss) (p : Older → Bool) : (s.giveUp x p).mgmt = s.mgmt := rfl
@[simp] theorem State.giveUp_agenda (x : Iss) (p : Older → Bool) : (s.giveUp x p).agenda = s.agenda := rfl
@[simp] theorem State.giveUp_cur (x : Iss) (p : Older → Bool) : (s.giveUp x p).cur = s.cur := rfl
@[simp] theorem State.giveUp_fresh (x : Iss) (p : Older → Bool) : (s.giveUp x p).fresh = s.fresh := rfl
@[simp] theorem State.giveUp_nextId (x : Iss) (p : Older → Bool) : (s.giveUp x p).nextId = s.nextId := rfl
@[simp] theorem State.giveUp_beat (x : Iss) (p : Older → Bool) : (s.giveUp x p).beat = s.beat := rfl
@[simp] theorem State.giveUp_round (x : Iss) (p : Older → Bool) : (s.giveUp x p).round = s.round := rfl
@[simp] theorem State.giveUp_clock (x : Iss) (p : Older → Bool) : (s.giveUp x p).clock = s.clock := rfl

/-! `countPoison` -/

@[simp] theorem State.countPoison_cores (v l : Nat) : (s.countPoison v l).cores = s.cores := rfl
@[simp] theorem State.countPoison_mem (v l : Nat) : (s.countPoison v l).mem = s.mem := rfl
@[simp] theorem State.countPoison_linePz (v l : Nat) : (s.countPoison v l).linePz = s.linePz := rfl
@[simp] theorem State.countPoison_wakeBits (v l : Nat) : (s.countPoison v l).wakeBits = s.wakeBits := rfl
@[simp] theorem State.countPoison_narrow (v l : Nat) : (s.countPoison v l).narrow = s.narrow := rfl
@[simp] theorem State.countPoison_dtu (v l : Nat) : (s.countPoison v l).dtu = s.dtu := rfl
@[simp] theorem State.countPoison_walks (v l : Nat) : (s.countPoison v l).walks = s.walks := rfl
@[simp] theorem State.countPoison_fills (v l : Nat) : (s.countPoison v l).fills = s.fills := rfl
@[simp] theorem State.countPoison_gops (v l : Nat) : (s.countPoison v l).gops = s.gops := rfl
@[simp] theorem State.countPoison_copies (v l : Nat) : (s.countPoison v l).copies = s.copies := rfl
@[simp] theorem State.countPoison_ovls (v l : Nat) : (s.countPoison v l).ovls = s.ovls := rfl
@[simp] theorem State.countPoison_arrivals (v l : Nat) : (s.countPoison v l).arrivals = s.arrivals := rfl
@[simp] theorem State.countPoison_moves (v l : Nat) : (s.countPoison v l).moves = s.moves := rfl
@[simp] theorem State.countPoison_pcopies (v l : Nat) : (s.countPoison v l).pcopies = s.pcopies := rfl
@[simp] theorem State.countPoison_blocks (v l : Nat) : (s.countPoison v l).blocks = s.blocks := rfl
@[simp] theorem State.countPoison_threads (v l : Nat) : (s.countPoison v l).threads = s.threads := rfl
@[simp] theorem State.countPoison_gov (v l : Nat) : (s.countPoison v l).gov = s.gov := rfl
@[simp] theorem State.countPoison_cpCyc (v l : Nat) : (s.countPoison v l).cpCyc = s.cpCyc := rfl
@[simp] theorem State.countPoison_mgmt (v l : Nat) : (s.countPoison v l).mgmt = s.mgmt := rfl
@[simp] theorem State.countPoison_agenda (v l : Nat) : (s.countPoison v l).agenda = s.agenda := rfl
@[simp] theorem State.countPoison_cur (v l : Nat) : (s.countPoison v l).cur = s.cur := rfl
@[simp] theorem State.countPoison_fresh (v l : Nat) : (s.countPoison v l).fresh = s.fresh := rfl
@[simp] theorem State.countPoison_nextId (v l : Nat) : (s.countPoison v l).nextId = s.nextId := rfl
@[simp] theorem State.countPoison_beat (v l : Nat) : (s.countPoison v l).beat = s.beat := rfl
@[simp] theorem State.countPoison_round (v l : Nat) : (s.countPoison v l).round = s.round := rfl
@[simp] theorem State.countPoison_clock (v l : Nat) : (s.countPoison v l).clock = s.clock := rfl

/-! `countDrop` -/

@[simp] theorem State.countDrop_cores (v : Nat) : (s.countDrop v).cores = s.cores := rfl
@[simp] theorem State.countDrop_mem (v : Nat) : (s.countDrop v).mem = s.mem := rfl
@[simp] theorem State.countDrop_linePz (v : Nat) : (s.countDrop v).linePz = s.linePz := rfl
@[simp] theorem State.countDrop_wakeBits (v : Nat) : (s.countDrop v).wakeBits = s.wakeBits := rfl
@[simp] theorem State.countDrop_narrow (v : Nat) : (s.countDrop v).narrow = s.narrow := rfl
@[simp] theorem State.countDrop_dtu (v : Nat) : (s.countDrop v).dtu = s.dtu := rfl
@[simp] theorem State.countDrop_walks (v : Nat) : (s.countDrop v).walks = s.walks := rfl
@[simp] theorem State.countDrop_fills (v : Nat) : (s.countDrop v).fills = s.fills := rfl
@[simp] theorem State.countDrop_gops (v : Nat) : (s.countDrop v).gops = s.gops := rfl
@[simp] theorem State.countDrop_copies (v : Nat) : (s.countDrop v).copies = s.copies := rfl
@[simp] theorem State.countDrop_ovls (v : Nat) : (s.countDrop v).ovls = s.ovls := rfl
@[simp] theorem State.countDrop_arrivals (v : Nat) : (s.countDrop v).arrivals = s.arrivals := rfl
@[simp] theorem State.countDrop_moves (v : Nat) : (s.countDrop v).moves = s.moves := rfl
@[simp] theorem State.countDrop_pcopies (v : Nat) : (s.countDrop v).pcopies = s.pcopies := rfl
@[simp] theorem State.countDrop_blocks (v : Nat) : (s.countDrop v).blocks = s.blocks := rfl
@[simp] theorem State.countDrop_threads (v : Nat) : (s.countDrop v).threads = s.threads := rfl
@[simp] theorem State.countDrop_gov (v : Nat) : (s.countDrop v).gov = s.gov := rfl
@[simp] theorem State.countDrop_cpCyc (v : Nat) : (s.countDrop v).cpCyc = s.cpCyc := rfl
@[simp] theorem State.countDrop_mgmt (v : Nat) : (s.countDrop v).mgmt = s.mgmt := rfl
@[simp] theorem State.countDrop_agenda (v : Nat) : (s.countDrop v).agenda = s.agenda := rfl
@[simp] theorem State.countDrop_cur (v : Nat) : (s.countDrop v).cur = s.cur := rfl
@[simp] theorem State.countDrop_fresh (v : Nat) : (s.countDrop v).fresh = s.fresh := rfl
@[simp] theorem State.countDrop_nextId (v : Nat) : (s.countDrop v).nextId = s.nextId := rfl
@[simp] theorem State.countDrop_beat (v : Nat) : (s.countDrop v).beat = s.beat := rfl
@[simp] theorem State.countDrop_round (v : Nat) : (s.countDrop v).round = s.round := rfl
@[simp] theorem State.countDrop_clock (v : Nat) : (s.countDrop v).clock = s.clock := rfl

/-! `pushErr` -/

@[simp] theorem State.pushErr_cores (v : Nat) (e : BitVec 256) : (s.pushErr v e).cores = s.cores := rfl
@[simp] theorem State.pushErr_mem (v : Nat) (e : BitVec 256) : (s.pushErr v e).mem = s.mem := rfl
@[simp] theorem State.pushErr_linePz (v : Nat) (e : BitVec 256) : (s.pushErr v e).linePz = s.linePz := rfl
@[simp] theorem State.pushErr_wakeBits (v : Nat) (e : BitVec 256) : (s.pushErr v e).wakeBits = s.wakeBits := rfl
@[simp] theorem State.pushErr_narrow (v : Nat) (e : BitVec 256) : (s.pushErr v e).narrow = s.narrow := rfl
@[simp] theorem State.pushErr_dtu (v : Nat) (e : BitVec 256) : (s.pushErr v e).dtu = s.dtu := rfl
@[simp] theorem State.pushErr_walks (v : Nat) (e : BitVec 256) : (s.pushErr v e).walks = s.walks := rfl
@[simp] theorem State.pushErr_fills (v : Nat) (e : BitVec 256) : (s.pushErr v e).fills = s.fills := rfl
@[simp] theorem State.pushErr_gops (v : Nat) (e : BitVec 256) : (s.pushErr v e).gops = s.gops := rfl
@[simp] theorem State.pushErr_copies (v : Nat) (e : BitVec 256) : (s.pushErr v e).copies = s.copies := rfl
@[simp] theorem State.pushErr_ovls (v : Nat) (e : BitVec 256) : (s.pushErr v e).ovls = s.ovls := rfl
@[simp] theorem State.pushErr_arrivals (v : Nat) (e : BitVec 256) : (s.pushErr v e).arrivals = s.arrivals := rfl
@[simp] theorem State.pushErr_moves (v : Nat) (e : BitVec 256) : (s.pushErr v e).moves = s.moves := rfl
@[simp] theorem State.pushErr_pcopies (v : Nat) (e : BitVec 256) : (s.pushErr v e).pcopies = s.pcopies := rfl
@[simp] theorem State.pushErr_blocks (v : Nat) (e : BitVec 256) : (s.pushErr v e).blocks = s.blocks := rfl
@[simp] theorem State.pushErr_threads (v : Nat) (e : BitVec 256) : (s.pushErr v e).threads = s.threads := rfl
@[simp] theorem State.pushErr_gov (v : Nat) (e : BitVec 256) : (s.pushErr v e).gov = s.gov := rfl
@[simp] theorem State.pushErr_cpCyc (v : Nat) (e : BitVec 256) : (s.pushErr v e).cpCyc = s.cpCyc := rfl
@[simp] theorem State.pushErr_agenda (v : Nat) (e : BitVec 256) : (s.pushErr v e).agenda = s.agenda := rfl
@[simp] theorem State.pushErr_cur (v : Nat) (e : BitVec 256) : (s.pushErr v e).cur = s.cur := rfl
@[simp] theorem State.pushErr_fresh (v : Nat) (e : BitVec 256) : (s.pushErr v e).fresh = s.fresh := rfl
@[simp] theorem State.pushErr_nextId (v : Nat) (e : BitVec 256) : (s.pushErr v e).nextId = s.nextId := rfl
@[simp] theorem State.pushErr_beat (v : Nat) (e : BitVec 256) : (s.pushErr v e).beat = s.beat := rfl
@[simp] theorem State.pushErr_round (v : Nat) (e : BitVec 256) : (s.pushErr v e).round = s.round := rfl
@[simp] theorem State.pushErr_clock (v : Nat) (e : BitVec 256) : (s.pushErr v e).clock = s.clock := rfl

/-! `addFill` -/

@[simp] theorem State.addFill_cores (f : Fill) : (s.addFill f).cores = s.cores := rfl
@[simp] theorem State.addFill_mem (f : Fill) : (s.addFill f).mem = s.mem := rfl
@[simp] theorem State.addFill_linePz (f : Fill) : (s.addFill f).linePz = s.linePz := rfl
@[simp] theorem State.addFill_wakeBits (f : Fill) : (s.addFill f).wakeBits = s.wakeBits := rfl
@[simp] theorem State.addFill_narrow (f : Fill) : (s.addFill f).narrow = s.narrow := rfl
@[simp] theorem State.addFill_dtu (f : Fill) : (s.addFill f).dtu = s.dtu := rfl
@[simp] theorem State.addFill_walks (f : Fill) : (s.addFill f).walks = s.walks := rfl
@[simp] theorem State.addFill_gops (f : Fill) : (s.addFill f).gops = s.gops := rfl
@[simp] theorem State.addFill_copies (f : Fill) : (s.addFill f).copies = s.copies := rfl
@[simp] theorem State.addFill_ovls (f : Fill) : (s.addFill f).ovls = s.ovls := rfl
@[simp] theorem State.addFill_arrivals (f : Fill) : (s.addFill f).arrivals = s.arrivals := rfl
@[simp] theorem State.addFill_moves (f : Fill) : (s.addFill f).moves = s.moves := rfl
@[simp] theorem State.addFill_pcopies (f : Fill) : (s.addFill f).pcopies = s.pcopies := rfl
@[simp] theorem State.addFill_blocks (f : Fill) : (s.addFill f).blocks = s.blocks := rfl
@[simp] theorem State.addFill_vds (f : Fill) : (s.addFill f).vds = s.vds := rfl
@[simp] theorem State.addFill_threads (f : Fill) : (s.addFill f).threads = s.threads := rfl
@[simp] theorem State.addFill_gov (f : Fill) : (s.addFill f).gov = s.gov := rfl
@[simp] theorem State.addFill_cpCyc (f : Fill) : (s.addFill f).cpCyc = s.cpCyc := rfl
@[simp] theorem State.addFill_mgmt (f : Fill) : (s.addFill f).mgmt = s.mgmt := rfl
@[simp] theorem State.addFill_agenda (f : Fill) : (s.addFill f).agenda = s.agenda := rfl
@[simp] theorem State.addFill_cur (f : Fill) : (s.addFill f).cur = s.cur := rfl
@[simp] theorem State.addFill_fresh (f : Fill) : (s.addFill f).fresh = s.fresh := rfl
@[simp] theorem State.addFill_nextId (f : Fill) : (s.addFill f).nextId = s.nextId := rfl
@[simp] theorem State.addFill_beat (f : Fill) : (s.addFill f).beat = s.beat := rfl
@[simp] theorem State.addFill_round (f : Fill) : (s.addFill f).round = s.round := rfl
@[simp] theorem State.addFill_clock (f : Fill) : (s.addFill f).clock = s.clock := rfl

/-! `take` -/

@[simp] theorem State.take_cores : (s.take.2).cores = s.cores := rfl
@[simp] theorem State.take_mem : (s.take.2).mem = s.mem := rfl
@[simp] theorem State.take_linePz : (s.take.2).linePz = s.linePz := rfl
@[simp] theorem State.take_wakeBits : (s.take.2).wakeBits = s.wakeBits := rfl
@[simp] theorem State.take_narrow : (s.take.2).narrow = s.narrow := rfl
@[simp] theorem State.take_dtu : (s.take.2).dtu = s.dtu := rfl
@[simp] theorem State.take_walks : (s.take.2).walks = s.walks := rfl
@[simp] theorem State.take_fills : (s.take.2).fills = s.fills := rfl
@[simp] theorem State.take_gops : (s.take.2).gops = s.gops := rfl
@[simp] theorem State.take_copies : (s.take.2).copies = s.copies := rfl
@[simp] theorem State.take_ovls : (s.take.2).ovls = s.ovls := rfl
@[simp] theorem State.take_arrivals : (s.take.2).arrivals = s.arrivals := rfl
@[simp] theorem State.take_moves : (s.take.2).moves = s.moves := rfl
@[simp] theorem State.take_pcopies : (s.take.2).pcopies = s.pcopies := rfl
@[simp] theorem State.take_blocks : (s.take.2).blocks = s.blocks := rfl
@[simp] theorem State.take_vds : (s.take.2).vds = s.vds := rfl
@[simp] theorem State.take_threads : (s.take.2).threads = s.threads := rfl
@[simp] theorem State.take_gov : (s.take.2).gov = s.gov := rfl
@[simp] theorem State.take_cpCyc : (s.take.2).cpCyc = s.cpCyc := rfl
@[simp] theorem State.take_mgmt : (s.take.2).mgmt = s.mgmt := rfl
@[simp] theorem State.take_agenda : (s.take.2).agenda = s.agenda := rfl
@[simp] theorem State.take_cur : (s.take.2).cur = s.cur := rfl
@[simp] theorem State.take_nextId : (s.take.2).nextId = s.nextId := rfl
@[simp] theorem State.take_beat : (s.take.2).beat = s.beat := rfl
@[simp] theorem State.take_round : (s.take.2).round = s.round := rfl
@[simp] theorem State.take_clock : (s.take.2).clock = s.clock := rfl

/-! `name` -/

@[simp] theorem State.name_cores : (s.name.2).cores = s.cores := rfl
@[simp] theorem State.name_mem : (s.name.2).mem = s.mem := rfl
@[simp] theorem State.name_linePz : (s.name.2).linePz = s.linePz := rfl
@[simp] theorem State.name_wakeBits : (s.name.2).wakeBits = s.wakeBits := rfl
@[simp] theorem State.name_narrow : (s.name.2).narrow = s.narrow := rfl
@[simp] theorem State.name_dtu : (s.name.2).dtu = s.dtu := rfl
@[simp] theorem State.name_walks : (s.name.2).walks = s.walks := rfl
@[simp] theorem State.name_fills : (s.name.2).fills = s.fills := rfl
@[simp] theorem State.name_gops : (s.name.2).gops = s.gops := rfl
@[simp] theorem State.name_copies : (s.name.2).copies = s.copies := rfl
@[simp] theorem State.name_ovls : (s.name.2).ovls = s.ovls := rfl
@[simp] theorem State.name_arrivals : (s.name.2).arrivals = s.arrivals := rfl
@[simp] theorem State.name_moves : (s.name.2).moves = s.moves := rfl
@[simp] theorem State.name_pcopies : (s.name.2).pcopies = s.pcopies := rfl
@[simp] theorem State.name_blocks : (s.name.2).blocks = s.blocks := rfl
@[simp] theorem State.name_vds : (s.name.2).vds = s.vds := rfl
@[simp] theorem State.name_threads : (s.name.2).threads = s.threads := rfl
@[simp] theorem State.name_gov : (s.name.2).gov = s.gov := rfl
@[simp] theorem State.name_cpCyc : (s.name.2).cpCyc = s.cpCyc := rfl
@[simp] theorem State.name_mgmt : (s.name.2).mgmt = s.mgmt := rfl
@[simp] theorem State.name_agenda : (s.name.2).agenda = s.agenda := rfl
@[simp] theorem State.name_cur : (s.name.2).cur = s.cur := rfl
@[simp] theorem State.name_fresh : (s.name.2).fresh = s.fresh := rfl
@[simp] theorem State.name_beat : (s.name.2).beat = s.beat := rfl
@[simp] theorem State.name_round : (s.name.2).round = s.round := rfl
@[simp] theorem State.name_clock : (s.name.2).clock = s.clock := rfl

/-! `charge` -/

@[simp] theorem State.charge_cores (v q n : Nat) : (s.charge v q n).cores = s.cores := rfl
@[simp] theorem State.charge_mem (v q n : Nat) : (s.charge v q n).mem = s.mem := rfl
@[simp] theorem State.charge_linePz (v q n : Nat) : (s.charge v q n).linePz = s.linePz := rfl
@[simp] theorem State.charge_wakeBits (v q n : Nat) : (s.charge v q n).wakeBits = s.wakeBits := rfl
@[simp] theorem State.charge_narrow (v q n : Nat) : (s.charge v q n).narrow = s.narrow := rfl
@[simp] theorem State.charge_dtu (v q n : Nat) : (s.charge v q n).dtu = s.dtu := rfl
@[simp] theorem State.charge_walks (v q n : Nat) : (s.charge v q n).walks = s.walks := rfl
@[simp] theorem State.charge_fills (v q n : Nat) : (s.charge v q n).fills = s.fills := rfl
@[simp] theorem State.charge_gops (v q n : Nat) : (s.charge v q n).gops = s.gops := rfl
@[simp] theorem State.charge_copies (v q n : Nat) : (s.charge v q n).copies = s.copies := rfl
@[simp] theorem State.charge_ovls (v q n : Nat) : (s.charge v q n).ovls = s.ovls := rfl
@[simp] theorem State.charge_arrivals (v q n : Nat) : (s.charge v q n).arrivals = s.arrivals := rfl
@[simp] theorem State.charge_moves (v q n : Nat) : (s.charge v q n).moves = s.moves := rfl
@[simp] theorem State.charge_pcopies (v q n : Nat) : (s.charge v q n).pcopies = s.pcopies := rfl
@[simp] theorem State.charge_blocks (v q n : Nat) : (s.charge v q n).blocks = s.blocks := rfl
@[simp] theorem State.charge_threads (v q n : Nat) : (s.charge v q n).threads = s.threads := rfl
@[simp] theorem State.charge_gov (v q n : Nat) : (s.charge v q n).gov = s.gov := rfl
@[simp] theorem State.charge_cpCyc (v q n : Nat) : (s.charge v q n).cpCyc = s.cpCyc := rfl
@[simp] theorem State.charge_mgmt (v q n : Nat) : (s.charge v q n).mgmt = s.mgmt := rfl
@[simp] theorem State.charge_agenda (v q n : Nat) : (s.charge v q n).agenda = s.agenda := rfl
@[simp] theorem State.charge_cur (v q n : Nat) : (s.charge v q n).cur = s.cur := rfl
@[simp] theorem State.charge_nextId (v q n : Nat) : (s.charge v q n).nextId = s.nextId := rfl
@[simp] theorem State.charge_beat (v q n : Nat) : (s.charge v q n).beat = s.beat := rfl
@[simp] theorem State.charge_round (v q n : Nat) : (s.charge v q n).round = s.round := rfl
@[simp] theorem State.charge_clock (v q n : Nat) : (s.charge v q n).clock = s.clock := rfl

/-! `unhold` -/

@[simp] theorem State.unhold_cores (r : BeamRef) : (s.unhold r).cores = s.cores := rfl
@[simp] theorem State.unhold_mem (r : BeamRef) : (s.unhold r).mem = s.mem := rfl
@[simp] theorem State.unhold_linePz (r : BeamRef) : (s.unhold r).linePz = s.linePz := rfl
@[simp] theorem State.unhold_wakeBits (r : BeamRef) : (s.unhold r).wakeBits = s.wakeBits := rfl
@[simp] theorem State.unhold_narrow (r : BeamRef) : (s.unhold r).narrow = s.narrow := rfl
@[simp] theorem State.unhold_dtu (r : BeamRef) : (s.unhold r).dtu = s.dtu := rfl
@[simp] theorem State.unhold_fills (r : BeamRef) : (s.unhold r).fills = s.fills := rfl
@[simp] theorem State.unhold_gops (r : BeamRef) : (s.unhold r).gops = s.gops := rfl
@[simp] theorem State.unhold_copies (r : BeamRef) : (s.unhold r).copies = s.copies := rfl
@[simp] theorem State.unhold_ovls (r : BeamRef) : (s.unhold r).ovls = s.ovls := rfl
@[simp] theorem State.unhold_arrivals (r : BeamRef) : (s.unhold r).arrivals = s.arrivals := rfl
@[simp] theorem State.unhold_moves (r : BeamRef) : (s.unhold r).moves = s.moves := rfl
@[simp] theorem State.unhold_pcopies (r : BeamRef) : (s.unhold r).pcopies = s.pcopies := rfl
@[simp] theorem State.unhold_blocks (r : BeamRef) : (s.unhold r).blocks = s.blocks := rfl
@[simp] theorem State.unhold_threads (r : BeamRef) : (s.unhold r).threads = s.threads := rfl
@[simp] theorem State.unhold_gov (r : BeamRef) : (s.unhold r).gov = s.gov := rfl
@[simp] theorem State.unhold_cpCyc (r : BeamRef) : (s.unhold r).cpCyc = s.cpCyc := rfl
@[simp] theorem State.unhold_mgmt (r : BeamRef) : (s.unhold r).mgmt = s.mgmt := rfl
@[simp] theorem State.unhold_agenda (r : BeamRef) : (s.unhold r).agenda = s.agenda := rfl
@[simp] theorem State.unhold_cur (r : BeamRef) : (s.unhold r).cur = s.cur := rfl
@[simp] theorem State.unhold_fresh (r : BeamRef) : (s.unhold r).fresh = s.fresh := rfl
@[simp] theorem State.unhold_nextId (r : BeamRef) : (s.unhold r).nextId = s.nextId := rfl
@[simp] theorem State.unhold_beat (r : BeamRef) : (s.unhold r).beat = s.beat := rfl
@[simp] theorem State.unhold_round (r : BeamRef) : (s.unhold r).round = s.round := rfl
@[simp] theorem State.unhold_clock (r : BeamRef) : (s.unhold r).clock = s.clock := rfl
@[simp] theorem State.unhold_vds (r : BeamRef) : (s.unhold r).vds = s.vds := rfl

/-! `startLoad` -/

@[simp] theorem State.startLoad_mem (c k v o : Nat) (r : Option BeamRef) (ns : Names) (b : Bool) : (s.startLoad c k v o r ns b).mem = s.mem := rfl
@[simp] theorem State.startLoad_linePz (c k v o : Nat) (r : Option BeamRef) (ns : Names) (b : Bool) : (s.startLoad c k v o r ns b).linePz = s.linePz := rfl
@[simp] theorem State.startLoad_wakeBits (c k v o : Nat) (r : Option BeamRef) (ns : Names) (b : Bool) : (s.startLoad c k v o r ns b).wakeBits = s.wakeBits := rfl
@[simp] theorem State.startLoad_narrow (c k v o : Nat) (r : Option BeamRef) (ns : Names) (b : Bool) : (s.startLoad c k v o r ns b).narrow = s.narrow := rfl
@[simp] theorem State.startLoad_dtu (c k v o : Nat) (r : Option BeamRef) (ns : Names) (b : Bool) : (s.startLoad c k v o r ns b).dtu = s.dtu := rfl
@[simp] theorem State.startLoad_walks (c k v o : Nat) (r : Option BeamRef) (ns : Names) (b : Bool) : (s.startLoad c k v o r ns b).walks = s.walks := rfl
@[simp] theorem State.startLoad_fills (c k v o : Nat) (r : Option BeamRef) (ns : Names) (b : Bool) : (s.startLoad c k v o r ns b).fills = s.fills := rfl
@[simp] theorem State.startLoad_gops (c k v o : Nat) (r : Option BeamRef) (ns : Names) (b : Bool) : (s.startLoad c k v o r ns b).gops = s.gops := rfl
@[simp] theorem State.startLoad_copies (c k v o : Nat) (r : Option BeamRef) (ns : Names) (b : Bool) : (s.startLoad c k v o r ns b).copies = s.copies := rfl
@[simp] theorem State.startLoad_arrivals (c k v o : Nat) (r : Option BeamRef) (ns : Names) (b : Bool) : (s.startLoad c k v o r ns b).arrivals = s.arrivals := rfl
@[simp] theorem State.startLoad_moves (c k v o : Nat) (r : Option BeamRef) (ns : Names) (b : Bool) : (s.startLoad c k v o r ns b).moves = s.moves := rfl
@[simp] theorem State.startLoad_pcopies (c k v o : Nat) (r : Option BeamRef) (ns : Names) (b : Bool) : (s.startLoad c k v o r ns b).pcopies = s.pcopies := rfl
@[simp] theorem State.startLoad_blocks (c k v o : Nat) (r : Option BeamRef) (ns : Names) (b : Bool) : (s.startLoad c k v o r ns b).blocks = s.blocks := rfl
@[simp] theorem State.startLoad_vds (c k v o : Nat) (r : Option BeamRef) (ns : Names) (b : Bool) : (s.startLoad c k v o r ns b).vds = s.vds := rfl
@[simp] theorem State.startLoad_threads (c k v o : Nat) (r : Option BeamRef) (ns : Names) (b : Bool) : (s.startLoad c k v o r ns b).threads = s.threads := rfl
@[simp] theorem State.startLoad_gov (c k v o : Nat) (r : Option BeamRef) (ns : Names) (b : Bool) : (s.startLoad c k v o r ns b).gov = s.gov := rfl
@[simp] theorem State.startLoad_cpCyc (c k v o : Nat) (r : Option BeamRef) (ns : Names) (b : Bool) : (s.startLoad c k v o r ns b).cpCyc = s.cpCyc := rfl
@[simp] theorem State.startLoad_mgmt (c k v o : Nat) (r : Option BeamRef) (ns : Names) (b : Bool) : (s.startLoad c k v o r ns b).mgmt = s.mgmt := rfl
@[simp] theorem State.startLoad_agenda (c k v o : Nat) (r : Option BeamRef) (ns : Names) (b : Bool) : (s.startLoad c k v o r ns b).agenda = s.agenda := rfl
@[simp] theorem State.startLoad_cur (c k v o : Nat) (r : Option BeamRef) (ns : Names) (b : Bool) : (s.startLoad c k v o r ns b).cur = s.cur := rfl
@[simp] theorem State.startLoad_fresh (c k v o : Nat) (r : Option BeamRef) (ns : Names) (b : Bool) : (s.startLoad c k v o r ns b).fresh = s.fresh := rfl
@[simp] theorem State.startLoad_beat (c k v o : Nat) (r : Option BeamRef) (ns : Names) (b : Bool) : (s.startLoad c k v o r ns b).beat = s.beat := rfl
@[simp] theorem State.startLoad_round (c k v o : Nat) (r : Option BeamRef) (ns : Names) (b : Bool) : (s.startLoad c k v o r ns b).round = s.round := rfl
@[simp] theorem State.startLoad_clock (c k v o : Nat) (r : Option BeamRef) (ns : Names) (b : Bool) : (s.startLoad c k v o r ns b).clock = s.clock := rfl

/-! `clearBeams` -/

@[simp] theorem State.clearBeams_mem (c : Nat) (r : Option Nat) (d : Bool) : (s.clearBeams c r d).mem = s.mem := rfl
@[simp] theorem State.clearBeams_linePz (c : Nat) (r : Option Nat) (d : Bool) : (s.clearBeams c r d).linePz = s.linePz := rfl
@[simp] theorem State.clearBeams_wakeBits (c : Nat) (r : Option Nat) (d : Bool) : (s.clearBeams c r d).wakeBits = s.wakeBits := rfl
@[simp] theorem State.clearBeams_narrow (c : Nat) (r : Option Nat) (d : Bool) : (s.clearBeams c r d).narrow = s.narrow := rfl
@[simp] theorem State.clearBeams_dtu (c : Nat) (r : Option Nat) (d : Bool) : (s.clearBeams c r d).dtu = s.dtu := rfl
@[simp] theorem State.clearBeams_walks (c : Nat) (r : Option Nat) (d : Bool) : (s.clearBeams c r d).walks = s.walks := rfl
@[simp] theorem State.clearBeams_copies (c : Nat) (r : Option Nat) (d : Bool) : (s.clearBeams c r d).copies = s.copies := rfl
@[simp] theorem State.clearBeams_ovls (c : Nat) (r : Option Nat) (d : Bool) : (s.clearBeams c r d).ovls = s.ovls := rfl
@[simp] theorem State.clearBeams_moves (c : Nat) (r : Option Nat) (d : Bool) : (s.clearBeams c r d).moves = s.moves := rfl
@[simp] theorem State.clearBeams_pcopies (c : Nat) (r : Option Nat) (d : Bool) : (s.clearBeams c r d).pcopies = s.pcopies := rfl
@[simp] theorem State.clearBeams_blocks (c : Nat) (r : Option Nat) (d : Bool) : (s.clearBeams c r d).blocks = s.blocks := rfl
@[simp] theorem State.clearBeams_vds (c : Nat) (r : Option Nat) (d : Bool) : (s.clearBeams c r d).vds = s.vds := rfl
@[simp] theorem State.clearBeams_threads (c : Nat) (r : Option Nat) (d : Bool) : (s.clearBeams c r d).threads = s.threads := rfl
@[simp] theorem State.clearBeams_gov (c : Nat) (r : Option Nat) (d : Bool) : (s.clearBeams c r d).gov = s.gov := rfl
@[simp] theorem State.clearBeams_cpCyc (c : Nat) (r : Option Nat) (d : Bool) : (s.clearBeams c r d).cpCyc = s.cpCyc := rfl
@[simp] theorem State.clearBeams_mgmt (c : Nat) (r : Option Nat) (d : Bool) : (s.clearBeams c r d).mgmt = s.mgmt := rfl
@[simp] theorem State.clearBeams_agenda (c : Nat) (r : Option Nat) (d : Bool) : (s.clearBeams c r d).agenda = s.agenda := rfl
@[simp] theorem State.clearBeams_cur (c : Nat) (r : Option Nat) (d : Bool) : (s.clearBeams c r d).cur = s.cur := rfl
@[simp] theorem State.clearBeams_fresh (c : Nat) (r : Option Nat) (d : Bool) : (s.clearBeams c r d).fresh = s.fresh := rfl
@[simp] theorem State.clearBeams_nextId (c : Nat) (r : Option Nat) (d : Bool) : (s.clearBeams c r d).nextId = s.nextId := rfl
@[simp] theorem State.clearBeams_beat (c : Nat) (r : Option Nat) (d : Bool) : (s.clearBeams c r d).beat = s.beat := rfl
@[simp] theorem State.clearBeams_round (c : Nat) (r : Option Nat) (d : Bool) : (s.clearBeams c r d).round = s.round := rfl
@[simp] theorem State.clearBeams_clock (c : Nat) (r : Option Nat) (d : Bool) : (s.clearBeams c r d).clock = s.clock := rfl

/-! `seeNow` -/

@[simp] theorem State.seeNow_mem (n : Nat) : (s.seeNow n).mem = s.mem := rfl
@[simp] theorem State.seeNow_linePz (n : Nat) : (s.seeNow n).linePz = s.linePz := rfl
@[simp] theorem State.seeNow_wakeBits (n : Nat) : (s.seeNow n).wakeBits = s.wakeBits := rfl
@[simp] theorem State.seeNow_narrow (n : Nat) : (s.seeNow n).narrow = s.narrow := rfl
@[simp] theorem State.seeNow_dtu (n : Nat) : (s.seeNow n).dtu = s.dtu := rfl
@[simp] theorem State.seeNow_walks (n : Nat) : (s.seeNow n).walks = s.walks := rfl
@[simp] theorem State.seeNow_fills (n : Nat) : (s.seeNow n).fills = s.fills := rfl
@[simp] theorem State.seeNow_gops (n : Nat) : (s.seeNow n).gops = s.gops := rfl
@[simp] theorem State.seeNow_copies (n : Nat) : (s.seeNow n).copies = s.copies := rfl
@[simp] theorem State.seeNow_ovls (n : Nat) : (s.seeNow n).ovls = s.ovls := rfl
@[simp] theorem State.seeNow_arrivals (n : Nat) : (s.seeNow n).arrivals = s.arrivals := rfl
@[simp] theorem State.seeNow_moves (n : Nat) : (s.seeNow n).moves = s.moves := rfl
@[simp] theorem State.seeNow_pcopies (n : Nat) : (s.seeNow n).pcopies = s.pcopies := rfl
@[simp] theorem State.seeNow_blocks (n : Nat) : (s.seeNow n).blocks = s.blocks := rfl
@[simp] theorem State.seeNow_vds (n : Nat) : (s.seeNow n).vds = s.vds := rfl
@[simp] theorem State.seeNow_threads (n : Nat) : (s.seeNow n).threads = s.threads := rfl
@[simp] theorem State.seeNow_gov (n : Nat) : (s.seeNow n).gov = s.gov := rfl
@[simp] theorem State.seeNow_cpCyc (n : Nat) : (s.seeNow n).cpCyc = s.cpCyc := rfl
@[simp] theorem State.seeNow_mgmt (n : Nat) : (s.seeNow n).mgmt = s.mgmt := rfl
@[simp] theorem State.seeNow_agenda (n : Nat) : (s.seeNow n).agenda = s.agenda := rfl
@[simp] theorem State.seeNow_cur (n : Nat) : (s.seeNow n).cur = s.cur := rfl
@[simp] theorem State.seeNow_fresh (n : Nat) : (s.seeNow n).fresh = s.fresh := rfl
@[simp] theorem State.seeNow_nextId (n : Nat) : (s.seeNow n).nextId = s.nextId := rfl
@[simp] theorem State.seeNow_beat (n : Nat) : (s.seeNow n).beat = s.beat := rfl
@[simp] theorem State.seeNow_round (n : Nat) : (s.seeNow n).round = s.round := rfl
@[simp] theorem State.seeNow_clock (n : Nat) : (s.seeNow n).clock = s.clock := rfl

/-! `cpTick` -/

@[simp] theorem State.cpTick_cores : (s.cpTick).cores = s.cores := rfl
@[simp] theorem State.cpTick_mem : (s.cpTick).mem = s.mem := rfl
@[simp] theorem State.cpTick_linePz : (s.cpTick).linePz = s.linePz := rfl
@[simp] theorem State.cpTick_wakeBits : (s.cpTick).wakeBits = s.wakeBits := rfl
@[simp] theorem State.cpTick_narrow : (s.cpTick).narrow = s.narrow := rfl
@[simp] theorem State.cpTick_dtu : (s.cpTick).dtu = s.dtu := rfl
@[simp] theorem State.cpTick_walks : (s.cpTick).walks = s.walks := rfl
@[simp] theorem State.cpTick_fills : (s.cpTick).fills = s.fills := rfl
@[simp] theorem State.cpTick_gops : (s.cpTick).gops = s.gops := rfl
@[simp] theorem State.cpTick_copies : (s.cpTick).copies = s.copies := rfl
@[simp] theorem State.cpTick_ovls : (s.cpTick).ovls = s.ovls := rfl
@[simp] theorem State.cpTick_arrivals : (s.cpTick).arrivals = s.arrivals := rfl
@[simp] theorem State.cpTick_moves : (s.cpTick).moves = s.moves := rfl
@[simp] theorem State.cpTick_pcopies : (s.cpTick).pcopies = s.pcopies := rfl
@[simp] theorem State.cpTick_blocks : (s.cpTick).blocks = s.blocks := rfl
@[simp] theorem State.cpTick_vds : (s.cpTick).vds = s.vds := rfl
@[simp] theorem State.cpTick_threads : (s.cpTick).threads = s.threads := rfl
@[simp] theorem State.cpTick_gov : (s.cpTick).gov = s.gov := rfl
@[simp] theorem State.cpTick_mgmt : (s.cpTick).mgmt = s.mgmt := rfl
@[simp] theorem State.cpTick_agenda : (s.cpTick).agenda = s.agenda := rfl
@[simp] theorem State.cpTick_cur : (s.cpTick).cur = s.cur := rfl
@[simp] theorem State.cpTick_nextId : (s.cpTick).nextId = s.nextId := rfl
@[simp] theorem State.cpTick_beat : (s.cpTick).beat = s.beat := rfl
@[simp] theorem State.cpTick_round : (s.cpTick).round = s.round := rfl
@[simp] theorem State.cpTick_clock : (s.cpTick).clock = s.clock := rfl

/-! `govTick` -/

@[simp] theorem State.govTick_cores (n : Nat) : (s.govTick n).cores = s.cores := rfl
@[simp] theorem State.govTick_mem (n : Nat) : (s.govTick n).mem = s.mem := rfl
@[simp] theorem State.govTick_linePz (n : Nat) : (s.govTick n).linePz = s.linePz := rfl
@[simp] theorem State.govTick_wakeBits (n : Nat) : (s.govTick n).wakeBits = s.wakeBits := rfl
@[simp] theorem State.govTick_narrow (n : Nat) : (s.govTick n).narrow = s.narrow := rfl
@[simp] theorem State.govTick_dtu (n : Nat) : (s.govTick n).dtu = s.dtu := rfl
@[simp] theorem State.govTick_walks (n : Nat) : (s.govTick n).walks = s.walks := rfl
@[simp] theorem State.govTick_fills (n : Nat) : (s.govTick n).fills = s.fills := rfl
@[simp] theorem State.govTick_gops (n : Nat) : (s.govTick n).gops = s.gops := rfl
@[simp] theorem State.govTick_copies (n : Nat) : (s.govTick n).copies = s.copies := rfl
@[simp] theorem State.govTick_ovls (n : Nat) : (s.govTick n).ovls = s.ovls := rfl
@[simp] theorem State.govTick_arrivals (n : Nat) : (s.govTick n).arrivals = s.arrivals := rfl
@[simp] theorem State.govTick_moves (n : Nat) : (s.govTick n).moves = s.moves := rfl
@[simp] theorem State.govTick_pcopies (n : Nat) : (s.govTick n).pcopies = s.pcopies := rfl
@[simp] theorem State.govTick_blocks (n : Nat) : (s.govTick n).blocks = s.blocks := rfl
@[simp] theorem State.govTick_vds (n : Nat) : (s.govTick n).vds = s.vds := rfl
@[simp] theorem State.govTick_threads (n : Nat) : (s.govTick n).threads = s.threads := rfl
@[simp] theorem State.govTick_cpCyc (n : Nat) : (s.govTick n).cpCyc = s.cpCyc := rfl
@[simp] theorem State.govTick_mgmt (n : Nat) : (s.govTick n).mgmt = s.mgmt := rfl
@[simp] theorem State.govTick_agenda (n : Nat) : (s.govTick n).agenda = s.agenda := rfl
@[simp] theorem State.govTick_cur (n : Nat) : (s.govTick n).cur = s.cur := rfl
@[simp] theorem State.govTick_nextId (n : Nat) : (s.govTick n).nextId = s.nextId := rfl
@[simp] theorem State.govTick_beat (n : Nat) : (s.govTick n).beat = s.beat := rfl
@[simp] theorem State.govTick_round (n : Nat) : (s.govTick n).round = s.round := rfl
@[simp] theorem State.govTick_clock (n : Nat) : (s.govTick n).clock = s.clock := rfl

/-! What the changed field becomes. -/

@[simp] theorem State.setCore_cores (n : Nat) (c : Core) : (s.setCore n c).cores = s.cores.put n c := rfl
@[simp] theorem State.updCore_cores (n : Nat) (f : Core → Core) : (s.updCore n f).cores = s.cores.put n (f (s.core n)) := rfl
@[simp] theorem State.updVd_vds (v : Nat) (f : VDev → VDev) : (s.updVd v f).vds = s.vds.upd v f := rfl
@[simp] theorem State.seeNow_cores (n : Nat) : (s.seeNow n).cores = s.cores.put n { s.core n with older := [] } := rfl
@[simp] theorem State.cpTick_cpCyc : s.cpTick.cpCyc = s.cpCyc + Config.cycles s.fresh := rfl
@[simp] theorem State.addFill_fills (f : Fill) : (s.addFill f).fills = s.fills ++ [f] := rfl
@[simp] theorem State.take_fst : s.take.1 = s.fresh := rfl
@[simp] theorem State.take_fresh : s.take.2.fresh = s.fresh + 1 := rfl
@[simp] theorem State.name_fst : s.name.1 = s.nextId := rfl
@[simp] theorem State.name_nextId : s.name.2.nextId = s.nextId + 1 := rfl

@[simp] theorem State.core_setCore_self (n : Nat) (c : Core) : (s.setCore n c).core n = c := by simp [State.core]

theorem State.core_setCore_ne {n k : Nat} (c : Core) (h : k ≠ n) : (s.setCore n c).core k = s.core k :=
  FMap.getD_put_ne s.cores c _ h

@[simp] theorem State.core_updCore_self (n : Nat) (f : Core → Core) : (s.updCore n f).core n = f (s.core n) :=
  s.core_setCore_self n _

theorem State.core_updCore_ne {n k : Nat} (f : Core → Core) (h : k ≠ n) : (s.updCore n f).core k = s.core k :=
  s.core_setCore_ne _ h

/-- The beam that was put in a slot stands there. -/
@[simp] theorem State.beam_setBeam_self (n k : Nat) (b : Beam) : (s.setBeam n k b).beam? n k = some b := by
  simp [State.beam?, State.setBeam]

/-- Every other slot holds what it held. -/
theorem State.beam_setBeam_ne {n k n' k' : Nat} (b : Beam) (h : (n', k') ≠ (n, k)) :
    (s.setBeam n k b).beam? n' k' = s.beam? n' k' := by
  unfold State.beam? State.setBeam
  by_cases hn : n' = n
  · subst hn
    have hk : k' ≠ k := fun e => h (by rw [e])
    rw [State.core_updCore_self]
    exact FMap.look_put_ne _ b hk
  · rw [State.core_updCore_ne _ _ hn]

/-- A beam changed in its slot. -/
@[simp] theorem State.beam_updBeam_self (n k : Nat) (f : Beam → Beam) : (s.updBeam n k f).beam? n k = (s.beam? n k).map f := by
  simp [State.beam?, State.updBeam]

theorem State.beam_updBeam_ne {n k n' k' : Nat} (f : Beam → Beam) (h : (n', k') ≠ (n, k)) :
    (s.updBeam n k f).beam? n' k' = s.beam? n' k' := by
  unfold State.beam? State.updBeam
  by_cases hn : n' = n
  · subst hn
    have hk : k' ≠ k := fun e => h (by rw [e])
    rw [State.core_updCore_self]
    exact FMap.look_upd_ne _ f hk
  · rw [State.core_updCore_ne _ _ hn]

/-- Beams stand as they did where the cores are as they were. -/
theorem State.beam_congr {s t : State} (h : t.cores = s.cores) (n k : Nat) : t.beam? n k = s.beam? n k := by
  simp [State.beam?, State.core, h]

/-- A launch changed in its virtual device. -/
@[simp] theorem State.launch_updLaunch_self (v l : Nat) (f : Launch → Launch) :
    (s.updLaunch v l f).launch? v l = (s.launch? v l).map f := by
  unfold State.launch? State.updLaunch
  rw [State.updVd_vds, FMap.look_upd_self]
  cases s.vds.look v <;> simp

theorem State.launch_updLaunch_ne {v l v' l' : Nat} (f : Launch → Launch) (h : (v', l') ≠ (v, l)) :
    (s.updLaunch v l f).launch? v' l' = s.launch? v' l' := by
  unfold State.launch? State.updLaunch
  by_cases hv : v' = v
  · subst hv
    have hl : l' ≠ l := fun e => h (by rw [e])
    rw [State.updVd_vds, FMap.look_upd_self]
    cases s.vds.look v' with
    | none => rfl
    | some d => exact FMap.look_upd_ne _ f hl
  · rw [State.updVd_vds, FMap.look_upd_ne _ _ hv]

end Sys2Proof.Machine
end

