-- ==== Sys2Proof/Laws/Frames.lean ====
section
/-!
SUPPORT. The shared operations leave memory alone: ends of beams and teams, kills, traps, selectors, and the end of an
instruction as far as its own part has left memory alone.
-/
namespace Sys2Proof.Machine

/-- What every step of a fold keeps, the fold keeps. -/
theorem foldl_keeps {σ β γ : Type} (g : σ → γ) (f : σ → β → σ) (h : ∀ s x, g (f s x) = g s) (l : List β) (s : σ) :
    g (l.foldl f s) = g s := by
  induction l generalizing s with
  | nil => rfl
  | cons x l ih => rw [List.foldl_cons, ih, h]

@[simp] theorem State.updTeam_mem (s : State) (n : Nat) (r : Option Nat) (f : Team → Team) : (s.updTeam n r f).mem = s.mem := by
  unfold State.updTeam; split <;> simp

@[simp] theorem State.deliver_mem (s : State) (r : BeamRef) (ns : Names) (o : RegOut) : (s.deliver r ns o).mem = s.mem := by
  unfold State.deliver; split <;> simp

@[simp] theorem State.settleBar_mem (s : State) (n : Nat) (r : Option Nat) (b : Nat) : (s.settleBar n r b).mem = s.mem := by
  unfold State.settleBar; repeat' split
  all_goals simp

@[simp] theorem State.settleCbar_mem (s : State) (n : Nat) (r : Option Nat) (b : Nat) : (s.settleCbar n r b).mem = s.mem := by
  unfold State.settleCbar
  dsimp only
  split
  · exact foldl_keeps State.mem _ (fun s x => by simp) _ s
  · rfl

@[simp] theorem State.settleBars_mem (s : State) (n : Nat) (r : Option Nat) : (s.settleBars n r).mem = s.mem := by
  unfold State.settleBars
  dsimp only
  rw [foldl_keeps State.mem _ (fun s x => by simp), foldl_keeps State.mem _ (fun s x => by simp)]

@[simp] theorem State.settleTrigger_mem (s : State) (v l : Nat) : (s.settleTrigger v l).mem = s.mem := by
  unfold State.settleTrigger; repeat' split
  all_goals simp

@[simp] theorem State.settleLaunch_mem (s : State) (v l : Nat) : (s.settleLaunch v l).mem = s.mem := by
  unfold State.settleLaunch; repeat' split
  all_goals simp

@[simp] theorem State.dropTeam_mem (s : State) (n : Nat) (r : Option Nat) : (s.dropTeam n r).mem = s.mem := by
  unfold State.dropTeam; split <;> simp

@[simp] theorem State.releaseKept_mem (s : State) (n : Nat) : (s.releaseKept n).mem = s.mem := rfl

@[simp] theorem State.retireTeam_mem (s : State) (t : Team) (st : TeamSt) : (s.retireTeam t st).mem = s.mem := by
  unfold State.retireTeam
  split
  · dsimp only
    rw [State.settleLaunch_mem, State.settleTrigger_mem]
    repeat' split
    all_goals simp
  · rfl

@[simp] theorem State.failResponders_mem (s : State) (t : Team) (l : List Nat) : (s.failResponders t l).mem = s.mem := by
  unfold State.failResponders; split <;> simp

@[simp] theorem State.endBeam_mem (s : State) (n k : Nat) : (s.endBeam n k).mem = s.mem := by
  unfold State.endBeam
  split
  · rfl
  · dsimp only
    repeat' split
    all_goals first
      | simp
      | rw [foldl_keeps State.mem _ (fun s x => by simp)]; simp

@[simp] theorem State.killTeam_mem (s : State) (v l i : Nat) (st : TeamSt) : (s.killTeam v l i st).mem = s.mem := by
  unfold State.killTeam
  cases st
  case resident | saving =>
    dsimp only
    repeat' split
    all_goals first
      | rfl
      | rw [foldl_keeps State.mem _ (fun s x => State.settleBars_mem s x none), State.retireTeam_mem, State.dropTeam_mem,
          State.clearBeams_mem]
  all_goals simp

@[simp] theorem State.killTeams_mem (s : State) (v l c : Nat) : (s.killTeams v l c).mem = s.mem := by
  unfold State.killTeams
  split
  · rfl
  · dsimp only
    rw [State.settleLaunch_mem, foldl_keeps State.mem _ (fun s x => by simp)]; simp

@[simp] theorem State.killLaunch_mem (s : State) (v l c n pc : Nat) : (s.killLaunch v l c n pc).mem = s.mem := by
  unfold State.killLaunch; split <;> simp

@[simp] theorem State.noteResponderTrap_mem (s : State) (v l : Nat) : (s.noteResponderTrap v l).mem = s.mem := by
  unfold State.noteResponderTrap
  dsimp only
  split <;> simp

@[simp] theorem State.endInTrap_mem (s : State) (n k sub : Nat) : (s.endInTrap n k sub).mem = s.mem := by
  unfold State.endInTrap
  repeat' split
  all_goals dsimp only
  all_goals repeat' split
  all_goals simp

@[simp] theorem State.takeTrap_mem (s : State) (n k : Nat) (t : Trap) (pc : Word) (nas : Option Sel) :
    (s.takeTrap n k t pc nas).mem = s.mem := by
  unfold State.takeTrap
  split
  · rfl
  · dsimp only
    repeat' split
    all_goals simp

@[simp] theorem State.advance_mem (s : State) (n k : Nat) (h : Head) (gm : Word) (ts : List (Nat × Nat × Word)) :
    (s.advance n k h gm ts).mem = s.mem := by
  unfold State.advance
  split
  · rfl
  · dsimp only
    repeat' split
    all_goals simp

@[simp] theorem State.finish_mem (s : State) (n k : Nat) : (s.finish n k).mem = s.mem := by
  unfold State.finish; repeat' split
  all_goals simp

@[simp] theorem State.order_mem (s : State) (n k : Nat) : (s.order n k).mem = s.mem := by
  unfold State.order
  split
  · rfl
  · split
    · simp
    · dsimp only
      split
      · repeat' split
        all_goals simp
      · rw [State.takeTrap_mem]
        repeat' split
        all_goals simp

@[simp] theorem State.returnFrom_mem (s : State) (n k : Nat) : (s.returnFrom n k).mem = s.mem := by
  unfold State.returnFrom; repeat' split
  all_goals dsimp only
  all_goals repeat' split
  all_goals simp

@[simp] theorem State.issued_mem (s : State) (x : Iss) (b : Bool) : (s.issued x b).mem = s.mem := by
  unfold State.issued
  dsimp only
  split <;> simp

@[simp] theorem State.detected_mem (s : State) (f : Front) : (s.detected f).mem = s.mem := by
  unfold State.detected
  split <;> simp

@[simp] theorem State.go_mem (s : State) (x : Iss) : (s.go x).mem = s.mem := State.advance_mem ..

@[simp] theorem State.join_mem (s : State) (x : Iss) : (s.join x).mem = s.mem := by
  unfold State.join; repeat' split
  all_goals simp

@[simp] theorem State.sendFill_mem (s : State) (x : Iss) (o : RegOut) (p : Option PrismOut) : (s.sendFill x o p).mem = s.mem := by
  unfold State.sendFill; dsimp only; split <;> rfl

/-- The state that an instruction's own part leaves: the one it was given, where it holds or traps. -/
def Res.state (s : State) : Res → State
  | .hold => s
  | .walk t => t
  | .trap _ => s
  | .trapIn _ t => t
  | .write _ t => t
  | .send _ t => t
  | .sent t => t
  | .sleep _ t => t
  | .after _ t => t
  | .leave t => t

/-- After an instruction memory is as its own part left it. -/
theorem State.apply_mem (s : State) (x : Iss) (r : Res) : (s.apply x r).mem = (r.state s).mem := by
  cases r <;> simp [State.apply, Res.state]

/-- An instruction that issues leaves memory as it was, or as its own part does. -/
theorem State.issue_mem {s t : State} {op : Op} {h : Head} {ms : Mods} {body : Iss → State → Res}
    (hi : s.issue op h ms body = .next t) : t.mem = s.mem ∨ ∃ x, t.mem = ((body x s).state s).mem := by
  unfold State.issue at hi
  split at hi
  · cases hi
  · split at hi
    · cases hi; exact .inl rfl
    · cases hi
      left
      rw [State.takeTrap_mem]
      repeat' split
      all_goals simp
    · cases hi
      exact .inr ⟨_, State.apply_mem ..⟩

/-- An instruction word whose own part leaves memory alone leaves memory alone. -/
theorem State.issue_mem_eq {s t : State} {op : Op} {h : Head} {ms : Mods} {body : Iss → State → Res}
    (hb : ∀ x, ((body x s).state s).mem = s.mem) (hi : s.issue op h ms body = .next t) : t.mem = s.mem := by
  rcases State.issue_mem hi with h | ⟨x, h⟩
  · exact h
  · rw [h, hb]

end Sys2Proof.Machine
end

