-- ==== Sys2Proof/Laws/Issue.lean ====
section
/-!
SUPPORT. What issue can do: the checks that have passed when an instruction goes on, and the outcome of an instruction in
terms of its own part.
-/
namespace Sys2Proof.Machine

/-- What is known of an instruction whose checks at issue have passed. -/
structure Gated (s : State) (f : Front) (op : Op) (h : Head) (ms : Mods) (x : Iss) : Prop where
  front : x.f = f
  op_eq : x.op = op
  head : x.h = h
  mods : x.ms = ms
  entry : x.e = op.entry h ms
  guard : x.gm = f.b.guardMask f.p h
  legal : entryReason f.b.limits op h ms = none
  dests : x.dests.any f.b.anyEmpty = false
  full : ∀ q ∈ x.sources, f.b.anyEmpty (f.b.names q.2.2.1 q.1) = false
  marker : x.markerTrap = none
  poison : x.poisonTrap = none

theorem jixGate_go {x y : Iss} {d : VDev} {c : Core} (h : x.jixGate d c = .go y) :
    y = { x with targets := y.targets } := by
  unfold Iss.jixGate at h
  split at h
  · injection h with h; subst h; rfl
  · dsimp only at h
    repeat' split at h
    all_goals (first | injection h with h; subst h; rfl | exact absurd h (by simp))

theorem gate_go {s : State} {f : Front} {op : Op} {h : Head} {ms : Mods} {x : Iss} (hg : s.gate f op h ms = .go x) :
    Gated s f op h ms x := by
  unfold State.gate at hg
  split at hg
  · cases hg
  split at hg
  · cases hg
  rename_i hl
  dsimp only at hg
  split at hg
  · cases hg
  split at hg
  · cases hg
  rename_i hd
  split at hg
  · cases hg
  rename_i he
  split at hg
  · cases hg
  rename_i he2
  split at hg
  · cases hg
  rename_i hm
  split at hg
  · cases hg
  rename_i hp
  obtain ⟨ts, rfl⟩ : ∃ ts, x = { f := f, op := op, h := h, ms := ms, e := op.entry h ms, gm := f.b.guardMask f.p h, targets := ts } :=
    ⟨x.targets, jixGate_go hg⟩
  refine ⟨rfl, rfl, rfl, rfl, rfl, rfl, hl, by simpa [Iss.dests] using hd, ?_, ?_, ?_⟩
  · intro q hq
    simp only [Bool.not_eq_true', Bool.not_eq_false, List.isEmpty_iff, List.filter_eq_nil_iff] at he2
    simpa using he2 q hq
  · simpa [Iss.markerTrap, Iss.sources, Iss.lanes] using hm
  · simpa [Iss.poisonTrap, Iss.poisonAt, Iss.sources, Iss.lanes] using hp

/-- What is known of an instruction that passes. -/
theorem passes_cases {s : State} {i : Instr} {x : Iss} (h : s.passes i = some x) :
    ∃ op hd ms f, i.view = some (op, hd, ms) ∧ s.front = some f ∧ s.gate f op hd ms = .go x := by
  unfold State.passes at h
  split at h
  · rename_i op hd ms f hv hf
    split at h
    · injection h with h; subst h; exact ⟨op, hd, ms, f, hv, hf, by assumption⟩
    · cases h
  · cases h

/-- An instruction that passes ends as its own part says. -/
theorem issue_of_passes {s : State} {i : Instr} {op : Op} {h : Head} {ms : Mods} {x : Iss} (hv : i.view = some (op, h, ms))
    (hp : s.passes i = some x) (body : Iss → State → Res) : s.issue op h ms body = .next (s.apply x (body x s)) := by
  obtain ⟨op', h', ms', f, hv', hf, hg⟩ := passes_cases hp
  rw [hv] at hv'; cases hv'
  simp [State.issue, hf, hg]

theorem passes_gated {s : State} {i : Instr} {op : Op} {h : Head} {ms : Mods} {x : Iss} (hv : i.view = some (op, h, ms))
    (hp : s.passes i = some x) : Gated s x.f op h ms x := by
  obtain ⟨op', h', ms', f, hv', hf, hg⟩ := passes_cases hp
  rw [hv] at hv'; cases hv'
  have := gate_go hg
  rw [this.front]; exact this

end Sys2Proof.Machine
end

