-- ==== Sys2Proof/Laws/PerInstr.lean ====
section
/-!
SUPPORT. One law for every instruction of the map: what `view` takes apart, `build` puts together again; an event has no view.
-/
namespace Sys2Proof

/-- The fields of an instruction word make up the instruction, and an event has none. -/
def Laws.Rebuild.Statement (i : Instr) : Prop :=
  match i.view with
  | some (op, h, ms) => op.build h ms = some i
  | none => encode i = none ∧ WellFormed i = true

theorem Laws.Rebuild.add : ∀ h m, Laws.Rebuild.Statement (.add h m) :=
  fun _ _ => rfl
theorem Laws.Rebuild.sub : ∀ h m, Laws.Rebuild.Statement (.sub h m) :=
  fun _ _ => rfl
theorem Laws.Rebuild.addc : ∀ h m, Laws.Rebuild.Statement (.addc h m) :=
  fun _ _ => rfl
theorem Laws.Rebuild.mul : ∀ h m, Laws.Rebuild.Statement (.mul h m) :=
  fun _ _ => rfl
theorem Laws.Rebuild.mulhi : ∀ h m, Laws.Rebuild.Statement (.mulhi h m) :=
  fun _ _ => rfl
theorem Laws.Rebuild.mad : ∀ h m, Laws.Rebuild.Statement (.mad h m) :=
  fun _ _ => rfl
theorem Laws.Rebuild.div : ∀ h m, Laws.Rebuild.Statement (.div h m) :=
  fun _ _ => rfl
theorem Laws.Rebuild.rem : ∀ h m, Laws.Rebuild.Statement (.rem h m) :=
  fun _ _ => rfl
theorem Laws.Rebuild.min : ∀ h m, Laws.Rebuild.Statement (.min h m) :=
  fun _ _ => rfl
theorem Laws.Rebuild.max : ∀ h m, Laws.Rebuild.Statement (.max h m) :=
  fun _ _ => rfl
theorem Laws.Rebuild.abs : ∀ h m, Laws.Rebuild.Statement (.abs h m) :=
  fun _ _ => rfl
theorem Laws.Rebuild.neg : ∀ h m, Laws.Rebuild.Statement (.neg h m) :=
  fun _ _ => rfl
theorem Laws.Rebuild.and : ∀ h m, Laws.Rebuild.Statement (.and h m) :=
  fun _ _ => rfl
theorem Laws.Rebuild.or : ∀ h m, Laws.Rebuild.Statement (.or h m) :=
  fun _ _ => rfl
theorem Laws.Rebuild.xor : ∀ h m, Laws.Rebuild.Statement (.xor h m) :=
  fun _ _ => rfl
theorem Laws.Rebuild.andn : ∀ h m, Laws.Rebuild.Statement (.andn h m) :=
  fun _ _ => rfl
theorem Laws.Rebuild.shl : ∀ h m, Laws.Rebuild.Statement (.shl h m) :=
  fun _ _ => rfl
theorem Laws.Rebuild.shr : ∀ h m, Laws.Rebuild.Statement (.shr h m) :=
  fun _ _ => rfl
theorem Laws.Rebuild.sar : ∀ h m, Laws.Rebuild.Statement (.sar h m) :=
  fun _ _ => rfl
theorem Laws.Rebuild.rot : ∀ h m, Laws.Rebuild.Statement (.rot h m) :=
  fun _ _ => rfl
theorem Laws.Rebuild.clz : ∀ h m, Laws.Rebuild.Statement (.clz h m) :=
  fun _ _ => rfl
theorem Laws.Rebuild.ctz : ∀ h m, Laws.Rebuild.Statement (.ctz h m) :=
  fun _ _ => rfl
theorem Laws.Rebuild.popc : ∀ h m, Laws.Rebuild.Statement (.popc h m) :=
  fun _ _ => rfl
theorem Laws.Rebuild.brev : ∀ h m, Laws.Rebuild.Statement (.brev h m) :=
  fun _ _ => rfl
theorem Laws.Rebuild.bfx : ∀ h m, Laws.Rebuild.Statement (.bfx h m) :=
  fun _ _ => rfl
theorem Laws.Rebuild.bfi : ∀ h m, Laws.Rebuild.Statement (.bfi h m) :=
  fun _ _ => rfl
theorem Laws.Rebuild.lea : ∀ h m, Laws.Rebuild.Statement (.lea h m) :=
  fun _ _ => rfl
theorem Laws.Rebuild.sel : ∀ h m, Laws.Rebuild.Statement (.sel h m) :=
  fun _ _ => rfl
theorem Laws.Rebuild.cmp : ∀ h m, Laws.Rebuild.Statement (.cmp h m) :=
  fun _ _ => rfl
theorem Laws.Rebuild.mov : ∀ h m, Laws.Rebuild.Statement (.mov h m) :=
  fun _ _ => rfl
theorem Laws.Rebuild.movi : ∀ h m, Laws.Rebuild.Statement (.movi h m) :=
  fun _ _ => rfl
theorem Laws.Rebuild.movh : ∀ h m, Laws.Rebuild.Statement (.movh h m) :=
  fun _ _ => rfl
theorem Laws.Rebuild.ext : ∀ h m, Laws.Rebuild.Statement (.ext h m) :=
  fun _ _ => rfl
theorem Laws.Rebuild.fadd : ∀ h m, Laws.Rebuild.Statement (.fadd h m) :=
  fun _ _ => rfl
theorem Laws.Rebuild.fsub : ∀ h m, Laws.Rebuild.Statement (.fsub h m) :=
  fun _ _ => rfl
theorem Laws.Rebuild.fmul : ∀ h m, Laws.Rebuild.Statement (.fmul h m) :=
  fun _ _ => rfl
theorem Laws.Rebuild.fma : ∀ h m, Laws.Rebuild.Statement (.fma h m) :=
  fun _ _ => rfl
theorem Laws.Rebuild.fscale : ∀ h m, Laws.Rebuild.Statement (.fscale h m) :=
  fun _ _ => rfl
theorem Laws.Rebuild.frint : ∀ h m, Laws.Rebuild.Statement (.frint h m) :=
  fun _ _ => rfl
theorem Laws.Rebuild.fmin : ∀ h m, Laws.Rebuild.Statement (.fmin h m) :=
  fun _ _ => rfl
theorem Laws.Rebuild.fmax : ∀ h m, Laws.Rebuild.Statement (.fmax h m) :=
  fun _ _ => rfl
theorem Laws.Rebuild.fminm : ∀ h m, Laws.Rebuild.Statement (.fminm h m) :=
  fun _ _ => rfl
theorem Laws.Rebuild.fmaxm : ∀ h m, Laws.Rebuild.Statement (.fmaxm h m) :=
  fun _ _ => rfl
theorem Laws.Rebuild.fcmp : ∀ h m, Laws.Rebuild.Statement (.fcmp h m) :=
  fun _ _ => rfl
theorem Laws.Rebuild.fclass : ∀ h m, Laws.Rebuild.Statement (.fclass h m) :=
  fun _ _ => rfl
theorem Laws.Rebuild.fdiv : ∀ h m, Laws.Rebuild.Statement (.fdiv h m) :=
  fun _ _ => rfl
theorem Laws.Rebuild.frcp : ∀ h m, Laws.Rebuild.Statement (.frcp h m) :=
  fun _ _ => rfl
theorem Laws.Rebuild.fsqrt : ∀ h m, Laws.Rebuild.Statement (.fsqrt h m) :=
  fun _ _ => rfl
theorem Laws.Rebuild.frsq : ∀ h m, Laws.Rebuild.Statement (.frsq h m) :=
  fun _ _ => rfl
theorem Laws.Rebuild.fexp2 : ∀ h m, Laws.Rebuild.Statement (.fexp2 h m) :=
  fun _ _ => rfl
theorem Laws.Rebuild.flog2 : ∀ h m, Laws.Rebuild.Statement (.flog2 h m) :=
  fun _ _ => rfl
theorem Laws.Rebuild.fsin : ∀ h m, Laws.Rebuild.Statement (.fsin h m) :=
  fun _ _ => rfl
theorem Laws.Rebuild.fcos : ∀ h m, Laws.Rebuild.Statement (.fcos h m) :=
  fun _ _ => rfl
theorem Laws.Rebuild.ftanh : ∀ h m, Laws.Rebuild.Statement (.ftanh h m) :=
  fun _ _ => rfl
theorem Laws.Rebuild.cvt : ∀ h m, Laws.Rebuild.Statement (.cvt h m) :=
  fun _ _ => rfl
theorem Laws.Rebuild.cvtq : ∀ h m, Laws.Rebuild.Statement (.cvtq h m) :=
  fun _ _ => rfl
theorem Laws.Rebuild.cvtd : ∀ h m, Laws.Rebuild.Statement (.cvtd h m) :=
  fun _ _ => rfl
theorem Laws.Rebuild.dot2 : ∀ h m, Laws.Rebuild.Statement (.dot2 h m) :=
  fun _ _ => rfl
theorem Laws.Rebuild.dot4 : ∀ h m, Laws.Rebuild.Statement (.dot4 h m) :=
  fun _ _ => rfl
theorem Laws.Rebuild.dot8 : ∀ h m, Laws.Rebuild.Statement (.dot8 h m) :=
  fun _ _ => rfl
theorem Laws.Rebuild.packb : ∀ h m, Laws.Rebuild.Statement (.packb h m) :=
  fun _ _ => rfl
theorem Laws.Rebuild.unpackb : ∀ h m, Laws.Rebuild.Statement (.unpackb h m) :=
  fun _ _ => rfl
theorem Laws.Rebuild.mshape : ∀ h m, Laws.Rebuild.Statement (.mshape h m) :=
  fun _ _ => rfl
theorem Laws.Rebuild.mzero : ∀ h m, Laws.Rebuild.Statement (.mzero h m) :=
  fun _ _ => rfl
theorem Laws.Rebuild.mfill : ∀ h m, Laws.Rebuild.Statement (.mfill h m) :=
  fun _ _ => rfl
theorem Laws.Rebuild.mld : ∀ h m, Laws.Rebuild.Statement (.mld h m) :=
  fun _ _ => rfl
theorem Laws.Rebuild.mst : ∀ h m, Laws.Rebuild.Statement (.mst h m) :=
  fun _ _ => rfl
theorem Laws.Rebuild.mget : ∀ h m, Laws.Rebuild.Statement (.mget h m) :=
  fun _ _ => rfl
theorem Laws.Rebuild.mset : ∀ h m, Laws.Rebuild.Statement (.mset h m) :=
  fun _ _ => rfl
theorem Laws.Rebuild.mmov : ∀ h m, Laws.Rebuild.Statement (.mmov h m) :=
  fun _ _ => rfl
theorem Laws.Rebuild.mtrn : ∀ h m, Laws.Rebuild.Statement (.mtrn h m) :=
  fun _ _ => rfl
theorem Laws.Rebuild.mcvt : ∀ h m, Laws.Rebuild.Statement (.mcvt h m) :=
  fun _ _ => rfl
theorem Laws.Rebuild.mma : ∀ h m, Laws.Rebuild.Statement (.mma h m) :=
  fun _ _ => rfl
theorem Laws.Rebuild.mmasp : ∀ h m, Laws.Rebuild.Statement (.mmasp h m) :=
  fun _ _ => rfl
theorem Laws.Rebuild.madd : ∀ h m, Laws.Rebuild.Statement (.madd h m) :=
  fun _ _ => rfl
theorem Laws.Rebuild.mhad : ∀ h m, Laws.Rebuild.Statement (.mhad h m) :=
  fun _ _ => rfl
theorem Laws.Rebuild.mred : ∀ h m, Laws.Rebuild.Statement (.mred h m) :=
  fun _ _ => rfl
theorem Laws.Rebuild.minv : ∀ h m, Laws.Rebuild.Statement (.minv h m) :=
  fun _ _ => rfl
theorem Laws.Rebuild.mlu : ∀ h m, Laws.Rebuild.Statement (.mlu h m) :=
  fun _ _ => rfl
theorem Laws.Rebuild.mchol : ∀ h m, Laws.Rebuild.Statement (.mchol h m) :=
  fun _ _ => rfl
theorem Laws.Rebuild.msolve : ∀ h m, Laws.Rebuild.Statement (.msolve h m) :=
  fun _ _ => rfl
theorem Laws.Rebuild.mexp : ∀ h m, Laws.Rebuild.Statement (.mexp h m) :=
  fun _ _ => rfl
theorem Laws.Rebuild.fmt : ∀ h, Laws.Rebuild.Statement (.fmt h) :=
  fun _ => rfl
theorem Laws.Rebuild.prismComplete : ∀ id misses, Laws.Rebuild.Statement (.prismComplete id misses) :=
  fun _ _ => ⟨rfl, rfl⟩
theorem Laws.Rebuild.shfl : ∀ h m, Laws.Rebuild.Statement (.shfl h m) :=
  fun _ _ => rfl
theorem Laws.Rebuild.vote : ∀ h m, Laws.Rebuild.Statement (.vote h m) :=
  fun _ _ => rfl
theorem Laws.Rebuild.redLane : ∀ h m, Laws.Rebuild.Statement (.redLane h m) :=
  fun _ _ => rfl
theorem Laws.Rebuild.scan : ∀ h m, Laws.Rebuild.Statement (.scan h m) :=
  fun _ _ => rfl
theorem Laws.Rebuild.part : ∀ h m, Laws.Rebuild.Statement (.part h m) :=
  fun _ _ => rfl
theorem Laws.Rebuild.lead : ∀ h m, Laws.Rebuild.Statement (.lead h m) :=
  fun _ _ => rfl
theorem Laws.Rebuild.rebal : ∀ h m, Laws.Rebuild.Statement (.rebal h m) :=
  fun _ _ => rfl
theorem Laws.Rebuild.topk : ∀ h m, Laws.Rebuild.Statement (.topk h m) :=
  fun _ _ => rfl
theorem Laws.Rebuild.ld : ∀ h m, Laws.Rebuild.Statement (.ld h m) :=
  fun _ _ => rfl
theorem Laws.Rebuild.st : ∀ h m, Laws.Rebuild.Statement (.st h m) :=
  fun _ _ => rfl
theorem Laws.Rebuild.lds : ∀ h m, Laws.Rebuild.Statement (.lds h m) :=
  fun _ _ => rfl
theorem Laws.Rebuild.sts : ∀ h m, Laws.Rebuild.Statement (.sts h m) :=
  fun _ _ => rfl
theorem Laws.Rebuild.atoms : ∀ h m, Laws.Rebuild.Statement (.atoms h m) :=
  fun _ _ => rfl
theorem Laws.Rebuild.reds : ∀ h m, Laws.Rebuild.Statement (.reds h m) :=
  fun _ _ => rfl
theorem Laws.Rebuild.copy : ∀ h m, Laws.Rebuild.Statement (.copy h m) :=
  fun _ _ => rfl
theorem Laws.Rebuild.bcopy : ∀ h m, Laws.Rebuild.Statement (.bcopy h m) :=
  fun _ _ => rfl
theorem Laws.Rebuild.ncopy : ∀ h m, Laws.Rebuild.Statement (.ncopy h m) :=
  fun _ _ => rfl
theorem Laws.Rebuild.lda : ∀ h m, Laws.Rebuild.Statement (.lda h m) :=
  fun _ _ => rfl
theorem Laws.Rebuild.str : ∀ h m, Laws.Rebuild.Statement (.str h m) :=
  fun _ _ => rfl
theorem Laws.Rebuild.svst : ∀ h, Laws.Rebuild.Statement (.svst h) :=
  fun _ => rfl
theorem Laws.Rebuild.atom : ∀ h m, Laws.Rebuild.Statement (.atom h m) :=
  fun _ _ => rfl
theorem Laws.Rebuild.redGlobal : ∀ h m, Laws.Rebuild.Statement (.redGlobal h m) :=
  fun _ _ => rfl
theorem Laws.Rebuild.fence : ∀ h m, Laws.Rebuild.Statement (.fence h m) :=
  fun _ _ => rfl
theorem Laws.Rebuild.wait : ∀ h, Laws.Rebuild.Statement (.wait h) :=
  fun _ => rfl
theorem Laws.Rebuild.arrive : ∀ h, Laws.Rebuild.Statement (.arrive h) :=
  fun _ => rfl
theorem Laws.Rebuild.sleep : ∀ h, Laws.Rebuild.Statement (.sleep h) :=
  fun _ => rfl
theorem Laws.Rebuild.bar : ∀ h, Laws.Rebuild.Statement (.bar h) :=
  fun _ => rfl
theorem Laws.Rebuild.cbar : ∀ h, Laws.Rebuild.Statement (.cbar h) :=
  fun _ => rfl
theorem Laws.Rebuild.trigger : ∀ h, Laws.Rebuild.Statement (.trigger h) :=
  fun _ => rfl
theorem Laws.Rebuild.spawn : ∀ h, Laws.Rebuild.Statement (.spawn h) :=
  fun _ => rfl
theorem Laws.Rebuild.spawnTry : ∀ h, Laws.Rebuild.Statement (.spawnTry h) :=
  fun _ => rfl
theorem Laws.Rebuild.dirput : ∀ h, Laws.Rebuild.Statement (.dirput h) :=
  fun _ => rfl
theorem Laws.Rebuild.dirdel : ∀ h, Laws.Rebuild.Statement (.dirdel h) :=
  fun _ => rfl
theorem Laws.Rebuild.dirmove : ∀ h, Laws.Rebuild.Statement (.dirmove h) :=
  fun _ => rfl
theorem Laws.Rebuild.dirq : ∀ h, Laws.Rebuild.Statement (.dirq h) :=
  fun _ => rfl
theorem Laws.Rebuild.solicit : ∀ h m, Laws.Rebuild.Statement (.solicit h m) :=
  fun _ _ => rfl
theorem Laws.Rebuild.respond : ∀ h, Laws.Rebuild.Statement (.respond h) :=
  fun _ => rfl
theorem Laws.Rebuild.nop : ∀ h, Laws.Rebuild.Statement (.nop h) :=
  fun _ => rfl
theorem Laws.Rebuild.joinat : ∀ h, Laws.Rebuild.Statement (.joinat h) :=
  fun _ => rfl
theorem Laws.Rebuild.lpad : ∀ h, Laws.Rebuild.Statement (.lpad h) :=
  fun _ => rfl
theorem Laws.Rebuild.ovl : ∀ h, Laws.Rebuild.Statement (.ovl h) :=
  fun _ => rfl
theorem Laws.Rebuild.brk : ∀ h, Laws.Rebuild.Statement (.brk h) :=
  fun _ => rfl
theorem Laws.Rebuild.trap : ∀ h, Laws.Rebuild.Statement (.trap h) :=
  fun _ => rfl
theorem Laws.Rebuild.rte : ∀ h, Laws.Rebuild.Statement (.rte h) :=
  fun _ => rfl
theorem Laws.Rebuild.sread : ∀ h, Laws.Rebuild.Statement (.sread h) :=
  fun _ => rfl
theorem Laws.Rebuild.swrite : ∀ h, Laws.Rebuild.Statement (.swrite h) :=
  fun _ => rfl
theorem Laws.Rebuild.ctxsv : ∀ h, Laws.Rebuild.Statement (.ctxsv h) :=
  fun _ => rfl
theorem Laws.Rebuild.ctxld : ∀ h, Laws.Rebuild.Statement (.ctxld h) :=
  fun _ => rfl
theorem Laws.Rebuild.errq : ∀ h, Laws.Rebuild.Statement (.errq h) :=
  fun _ => rfl
theorem Laws.Rebuild.kill : ∀ h, Laws.Rebuild.Statement (.kill h) :=
  fun _ => rfl
theorem Laws.Rebuild.registerFill : ∀ id, Laws.Rebuild.Statement (.registerFill id) :=
  fun _ => ⟨rfl, rfl⟩
theorem Laws.Rebuild.copyStatusFill : ∀ id refused, Laws.Rebuild.Statement (.copyStatusFill id refused) :=
  fun _ _ => ⟨rfl, rfl⟩
theorem Laws.Rebuild.ovlLoadComplete : ∀ id, Laws.Rebuild.Statement (.ovlLoadComplete id) :=
  fun _ => ⟨rfl, rfl⟩
theorem Laws.Rebuild.entryOverlayLoad : ∀ core, Laws.Rebuild.Statement (.entryOverlayLoad core) :=
  fun _ => ⟨rfl, rfl⟩
theorem Laws.Rebuild.arrivalCounterIncrement : ∀ id, Laws.Rebuild.Statement (.arrivalCounterIncrement id) :=
  fun _ => ⟨rfl, rfl⟩
theorem Laws.Rebuild.sleepExpiry : ∀ core slot, Laws.Rebuild.Statement (.sleepExpiry core slot) :=
  fun _ _ => ⟨rfl, rfl⟩
theorem Laws.Rebuild.spawnRetry : ∀ core slot, Laws.Rebuild.Statement (.spawnRetry core slot) :=
  fun _ _ => ⟨rfl, rfl⟩
theorem Laws.Rebuild.coalescingTimerExpiry : ∀ vd graph node, Laws.Rebuild.Statement (.coalescingTimerExpiry vd graph node) :=
  fun _ _ _ => ⟨rfl, rfl⟩
theorem Laws.Rebuild.binTeamStart : ∀ vd graph node, Laws.Rebuild.Statement (.binTeamStart vd graph node) :=
  fun _ _ _ => ⟨rfl, rfl⟩
theorem Laws.Rebuild.pageWalkComplete : ∀ id, Laws.Rebuild.Statement (.pageWalkComplete id) :=
  fun _ => ⟨rfl, rfl⟩
theorem Laws.Rebuild.remoteWriteAck : ∀ id refused, Laws.Rebuild.Statement (.remoteWriteAck id refused) :=
  fun _ _ => ⟨rfl, rfl⟩
theorem Laws.Rebuild.censusSlotTaken : ∀ vd, Laws.Rebuild.Statement (.censusSlotTaken vd) :=
  fun _ => ⟨rfl, rfl⟩
theorem Laws.Rebuild.censusScan : ∀ vd slot core, Laws.Rebuild.Statement (.censusScan vd slot core) :=
  fun _ _ _ => ⟨rfl, rfl⟩
theorem Laws.Rebuild.responderPlace : ∀ core, Laws.Rebuild.Statement (.responderPlace core) :=
  fun _ => ⟨rfl, rfl⟩
theorem Laws.Rebuild.responderBoundExpiry : ∀ id, Laws.Rebuild.Statement (.responderBoundExpiry id) :=
  fun _ => ⟨rfl, rfl⟩
theorem Laws.Rebuild.doneReport : ∀ vd slot core, Laws.Rebuild.Statement (.doneReport vd slot core) :=
  fun _ _ _ => ⟨rfl, rfl⟩
theorem Laws.Rebuild.responseCombine : ∀ vd slot id, Laws.Rebuild.Statement (.responseCombine vd slot id) :=
  fun _ _ _ => ⟨rfl, rfl⟩
theorem Laws.Rebuild.censusClose : ∀ vd slot, Laws.Rebuild.Statement (.censusClose vd slot) :=
  fun _ _ => ⟨rfl, rfl⟩
theorem Laws.Rebuild.moveReserve : ∀ id, Laws.Rebuild.Statement (.moveReserve id) :=
  fun _ => ⟨rfl, rfl⟩
theorem Laws.Rebuild.moveCommit : ∀ id, Laws.Rebuild.Statement (.moveCommit id) :=
  fun _ => ⟨rfl, rfl⟩
theorem Laws.Rebuild.moveInstall : ∀ id, Laws.Rebuild.Statement (.moveInstall id) :=
  fun _ => ⟨rfl, rfl⟩
theorem Laws.Rebuild.moveAck : ∀ id, Laws.Rebuild.Statement (.moveAck id) :=
  fun _ => ⟨rfl, rfl⟩
theorem Laws.Rebuild.queueMap : ∀ vd queue, Laws.Rebuild.Statement (.queueMap vd queue) :=
  fun _ _ => ⟨rfl, rfl⟩
theorem Laws.Rebuild.watchedWordRetest : ∀ thread, Laws.Rebuild.Statement (.watchedWordRetest thread) :=
  fun _ => ⟨rfl, rfl⟩
theorem Laws.Rebuild.nopPacket : ∀ vd queue, Laws.Rebuild.Statement (.nopPacket vd queue) :=
  fun _ _ => ⟨rfl, rfl⟩
theorem Laws.Rebuild.launchPacket : ∀ vd queue, Laws.Rebuild.Statement (.launchPacket vd queue) :=
  fun _ _ => ⟨rfl, rfl⟩
theorem Laws.Rebuild.copyPacket : ∀ vd queue, Laws.Rebuild.Statement (.copyPacket vd queue) :=
  fun _ _ => ⟨rfl, rfl⟩
theorem Laws.Rebuild.copyPacketComplete : ∀ id refusedAt, Laws.Rebuild.Statement (.copyPacketComplete id refusedAt) :=
  fun _ _ => ⟨rfl, rfl⟩
theorem Laws.Rebuild.waitValuePacket : ∀ vd queue, Laws.Rebuild.Statement (.waitValuePacket vd queue) :=
  fun _ _ => ⟨rfl, rfl⟩
theorem Laws.Rebuild.signalPacket : ∀ vd queue, Laws.Rebuild.Statement (.signalPacket vd queue) :=
  fun _ _ => ⟨rfl, rfl⟩
theorem Laws.Rebuild.setShapePacket : ∀ vd queue, Laws.Rebuild.Statement (.setShapePacket vd queue) :=
  fun _ _ => ⟨rfl, rfl⟩
theorem Laws.Rebuild.graphPacket : ∀ vd queue, Laws.Rebuild.Statement (.graphPacket vd queue) :=
  fun _ _ => ⟨rfl, rfl⟩
theorem Laws.Rebuild.bindWarmPacket : ∀ vd queue, Laws.Rebuild.Statement (.bindWarmPacket vd queue) :=
  fun _ _ => ⟨rfl, rfl⟩
theorem Laws.Rebuild.deadlinePacket : ∀ vd queue, Laws.Rebuild.Statement (.deadlinePacket vd queue) :=
  fun _ _ => ⟨rfl, rfl⟩
theorem Laws.Rebuild.barrierPacket : ∀ vd queue, Laws.Rebuild.Statement (.barrierPacket vd queue) :=
  fun _ _ => ⟨rfl, rfl⟩
theorem Laws.Rebuild.launchDispatch : ∀ vd launch, Laws.Rebuild.Statement (.launchDispatch vd launch) :=
  fun _ _ => ⟨rfl, rfl⟩
theorem Laws.Rebuild.graphNodeDispatch : ∀ vd graph node, Laws.Rebuild.Statement (.graphNodeDispatch vd graph node) :=
  fun _ _ _ => ⟨rfl, rfl⟩
theorem Laws.Rebuild.teamPlace : ∀ vd launch team core, Laws.Rebuild.Statement (.teamPlace vd launch team core) :=
  fun _ _ _ _ => ⟨rfl, rfl⟩
theorem Laws.Rebuild.regulatorStable : ∀ die, Laws.Rebuild.Statement (.regulatorStable die) :=
  fun _ => ⟨rfl, rfl⟩
theorem Laws.Rebuild.sliceExpiry : ∀ core, Laws.Rebuild.Statement (.sliceExpiry core) :=
  fun _ => ⟨rfl, rfl⟩
theorem Laws.Rebuild.preempt : ∀ core, Laws.Rebuild.Statement (.preempt core) :=
  fun _ => ⟨rfl, rfl⟩
theorem Laws.Rebuild.discardComplete : ∀ vd launch team, Laws.Rebuild.Statement (.discardComplete vd launch team) :=
  fun _ _ _ => ⟨rfl, rfl⟩
theorem Laws.Rebuild.saveComplete : ∀ vd launch team, Laws.Rebuild.Statement (.saveComplete vd launch team) :=
  fun _ _ _ => ⟨rfl, rfl⟩
theorem Laws.Rebuild.saveTimeout : ∀ vd launch team, Laws.Rebuild.Statement (.saveTimeout vd launch team) :=
  fun _ _ _ => ⟨rfl, rfl⟩
theorem Laws.Rebuild.launchDone : ∀ vd launch, Laws.Rebuild.Statement (.launchDone vd launch) :=
  fun _ _ => ⟨rfl, rfl⟩
theorem Laws.Rebuild.deadlineExpiry : ∀ vd launch, Laws.Rebuild.Statement (.deadlineExpiry vd launch) :=
  fun _ _ => ⟨rfl, rfl⟩
theorem Laws.Rebuild.watchdogExpiry : ∀ vd queue, Laws.Rebuild.Statement (.watchdogExpiry vd queue) :=
  fun _ _ => ⟨rfl, rfl⟩
theorem Laws.Rebuild.jobRecordFlush : ∀ vd, Laws.Rebuild.Statement (.jobRecordFlush vd) :=
  fun _ => ⟨rfl, rfl⟩
theorem Laws.Rebuild.idleThreshold : ∀ vd, Laws.Rebuild.Statement (.idleThreshold vd) :=
  fun _ => ⟨rfl, rfl⟩
theorem Laws.Rebuild.collapseComplete : ∀ vd, Laws.Rebuild.Statement (.collapseComplete vd) :=
  fun _ => ⟨rfl, rfl⟩
theorem Laws.Rebuild.wakeWrite : ∀ line, Laws.Rebuild.Statement (.wakeWrite line) :=
  fun _ => ⟨rfl, rfl⟩
theorem Laws.Rebuild.wakeNotice : ∀ vd die, Laws.Rebuild.Statement (.wakeNotice vd die) :=
  fun _ _ => ⟨rfl, rfl⟩
theorem Laws.Rebuild.wakeComplete : ∀ vd, Laws.Rebuild.Statement (.wakeComplete vd) :=
  fun _ => ⟨rfl, rfl⟩
theorem Laws.Rebuild.wakeFault : ∀ vd cycles, Laws.Rebuild.Statement (.wakeFault vd cycles) :=
  fun _ _ => ⟨rfl, rfl⟩
theorem Laws.Rebuild.operatingPointLower : ∀ die point, Laws.Rebuild.Statement (.operatingPointLower die point) :=
  fun _ _ => ⟨rfl, rfl⟩
theorem Laws.Rebuild.coreRetirement : ∀ core, Laws.Rebuild.Statement (.coreRetirement core) :=
  fun _ => ⟨rfl, rfl⟩
theorem Laws.Rebuild.associationPacketReceive : ∀ pkt, Laws.Rebuild.Statement (.associationPacketReceive pkt) :=
  fun _ => ⟨rfl, rfl⟩
theorem Laws.Rebuild.associationKeyAgreement : ∀ assoc host salt verified, Laws.Rebuild.Statement (.associationKeyAgreement assoc host salt verified) :=
  fun _ _ _ _ => ⟨rfl, rfl⟩
theorem Laws.Rebuild.ideKeyRefresh : ∀ port, Laws.Rebuild.Statement (.ideKeyRefresh port) :=
  fun _ => ⟨rfl, rfl⟩
theorem Laws.Rebuild.cxlIntegrityFailure : ∀ port, Laws.Rebuild.Statement (.cxlIntegrityFailure port) :=
  fun _ => ⟨rfl, rfl⟩
theorem Laws.Rebuild.portRecalibrate : ∀ port, Laws.Rebuild.Statement (.portRecalibrate port) :=
  fun _ => ⟨rfl, rfl⟩
theorem Laws.Rebuild.portFail : ∀ port, Laws.Rebuild.Statement (.portFail port) :=
  fun _ => ⟨rfl, rfl⟩
theorem Laws.Rebuild.cxlDeviceAdd : ∀ port base gib, Laws.Rebuild.Statement (.cxlDeviceAdd port base gib) :=
  fun _ _ _ => ⟨rfl, rfl⟩
theorem Laws.Rebuild.powerUp : Laws.Rebuild.Statement .powerUp := ⟨rfl, rfl⟩
theorem Laws.Rebuild.electionClose : Laws.Rebuild.Statement .electionClose := ⟨rfl, rfl⟩
theorem Laws.Rebuild.ownerLoss : Laws.Rebuild.Statement .ownerLoss := ⟨rfl, rfl⟩
theorem Laws.Rebuild.createVirtualDevice : ∀ req, Laws.Rebuild.Statement (.createVirtualDevice req) :=
  fun _ => ⟨rfl, rfl⟩
theorem Laws.Rebuild.destroyVirtualDevice : ∀ req, Laws.Rebuild.Statement (.destroyVirtualDevice req) :=
  fun _ => ⟨rfl, rfl⟩
theorem Laws.Rebuild.installKeySet : ∀ req, Laws.Rebuild.Statement (.installKeySet req) :=
  fun _ => ⟨rfl, rfl⟩
theorem Laws.Rebuild.setPtroot : ∀ req, Laws.Rebuild.Statement (.setPtroot req) :=
  fun _ => ⟨rfl, rfl⟩
theorem Laws.Rebuild.invalidateRange : ∀ req, Laws.Rebuild.Statement (.invalidateRange req) :=
  fun _ => ⟨rfl, rfl⟩
theorem Laws.Rebuild.invalidateComplete : ∀ id, Laws.Rebuild.Statement (.invalidateComplete id) :=
  fun _ => ⟨rfl, rfl⟩
theorem Laws.Rebuild.writePeerEntry : ∀ req, Laws.Rebuild.Statement (.writePeerEntry req) :=
  fun _ => ⟨rfl, rfl⟩
theorem Laws.Rebuild.bindAssociation : ∀ req, Laws.Rebuild.Statement (.bindAssociation req) :=
  fun _ => ⟨rfl, rfl⟩
theorem Laws.Rebuild.loadContainer : ∀ req, Laws.Rebuild.Statement (.loadContainer req) :=
  fun _ => ⟨rfl, rfl⟩
theorem Laws.Rebuild.unloadContainer : ∀ req, Laws.Rebuild.Statement (.unloadContainer req) :=
  fun _ => ⟨rfl, rfl⟩
theorem Laws.Rebuild.createQueue : ∀ req, Laws.Rebuild.Statement (.createQueue req) :=
  fun _ => ⟨rfl, rfl⟩
theorem Laws.Rebuild.deleteQueue : ∀ req, Laws.Rebuild.Statement (.deleteQueue req) :=
  fun _ => ⟨rfl, rfl⟩
theorem Laws.Rebuild.resumeQueue : ∀ req, Laws.Rebuild.Statement (.resumeQueue req) :=
  fun _ => ⟨rfl, rfl⟩
theorem Laws.Rebuild.resetQueue : ∀ req, Laws.Rebuild.Statement (.resetQueue req) :=
  fun _ => ⟨rfl, rfl⟩
theorem Laws.Rebuild.setRecordRing : ∀ req, Laws.Rebuild.Statement (.setRecordRing req) :=
  fun _ => ⟨rfl, rfl⟩
theorem Laws.Rebuild.createSharedRange : ∀ req, Laws.Rebuild.Statement (.createSharedRange req) :=
  fun _ => ⟨rfl, rfl⟩
theorem Laws.Rebuild.grantSharedRange : ∀ req, Laws.Rebuild.Statement (.grantSharedRange req) :=
  fun _ => ⟨rfl, rfl⟩
theorem Laws.Rebuild.revokeSharedRange : ∀ req, Laws.Rebuild.Statement (.revokeSharedRange req) :=
  fun _ => ⟨rfl, rfl⟩
theorem Laws.Rebuild.deleteSharedRange : ∀ req, Laws.Rebuild.Statement (.deleteSharedRange req) :=
  fun _ => ⟨rfl, rfl⟩
theorem Laws.Rebuild.updateFirmware : ∀ req, Laws.Rebuild.Statement (.updateFirmware req) :=
  fun _ => ⟨rfl, rfl⟩
theorem Laws.Rebuild.firmwareSwitch : ∀ thread, Laws.Rebuild.Statement (.firmwareSwitch thread) :=
  fun _ => ⟨rfl, rfl⟩
theorem Laws.Rebuild.setAuthorisedDigest : ∀ req, Laws.Rebuild.Statement (.setAuthorisedDigest req) :=
  fun _ => ⟨rfl, rfl⟩
theorem Laws.Rebuild.clearAuthorisedDigest : ∀ req, Laws.Rebuild.Statement (.clearAuthorisedDigest req) :=
  fun _ => ⟨rfl, rfl⟩
theorem Laws.Rebuild.handOverOwnership : ∀ req, Laws.Rebuild.Statement (.handOverOwnership req) :=
  fun _ => ⟨rfl, rfl⟩
theorem Laws.Rebuild.wakeRequest : ∀ req, Laws.Rebuild.Statement (.wakeRequest req) :=
  fun _ => ⟨rfl, rfl⟩
theorem Laws.Rebuild.resetContext : ∀ req, Laws.Rebuild.Statement (.resetContext req) :=
  fun _ => ⟨rfl, rfl⟩
theorem Laws.Rebuild.readPackageStatus : ∀ req, Laws.Rebuild.Statement (.readPackageStatus req) :=
  fun _ => ⟨rfl, rfl⟩
theorem Laws.Rebuild.readDeviationRing : ∀ req, Laws.Rebuild.Statement (.readDeviationRing req) :=
  fun _ => ⟨rfl, rfl⟩
theorem Laws.Rebuild.readJobRecords : ∀ req, Laws.Rebuild.Statement (.readJobRecords req) :=
  fun _ => ⟨rfl, rfl⟩
theorem Laws.Rebuild.claimOwnership : ∀ req, Laws.Rebuild.Statement (.claimOwnership req) :=
  fun _ => ⟨rfl, rfl⟩
theorem Laws.Rebuild.acceptHandover : ∀ req, Laws.Rebuild.Statement (.acceptHandover req) :=
  fun _ => ⟨rfl, rfl⟩
theorem Laws.Rebuild.globalWritePerformed : ∀ id, Laws.Rebuild.Statement (.globalWritePerformed id) :=
  fun _ => ⟨rfl, rfl⟩
theorem Laws.Rebuild.badPacket : ∀ vd queue, Laws.Rebuild.Statement (.badPacket vd queue) :=
  fun _ _ => ⟨rfl, rfl⟩
theorem Laws.Rebuild.illegalInstruction : ∀ reason, Laws.Rebuild.Statement (.illegalInstruction reason) :=
  fun _ => ⟨rfl, rfl⟩
theorem Laws.Rebuild.nonresidentOverlayIssue : Laws.Rebuild.Statement .nonresidentOverlayIssue := ⟨rfl, rfl⟩
theorem Laws.Rebuild.portReestablished : ∀ port, Laws.Rebuild.Statement (.portReestablished port) :=
  fun _ => ⟨rfl, rfl⟩

end Sys2Proof
end

