-- ==== Sys2Proof/Laws/Registers.lean ====
section
/-!
SUPPORT. Registers after a write, and the bounds of the error queues after an update of a virtual device.
-/
namespace Sys2Proof.Machine

/-! ### Values put at keys -/

theorem look_putAll_of_not_mem {α : Type} (m : FMap α) (es : List (Nat × α)) (k : Nat) (h : ∀ e ∈ es, e.1 ≠ k) :
    FMap.look (putAll m es) k = FMap.look m k := by
  unfold putAll
  induction es generalizing m with
  | nil => rfl
  | cons e es ih =>
    rw [List.foldl_cons, ih _ (fun x hx => h x (by simp [hx])), FMap.look_put_ne _ _ (Ne.symm (h e (by simp)))]

/-- A v register of a lane that a write does not name reads as before. -/
theorem Beam.vreg_write (b : Beam) (o : RegOut) (l n : Nat) (h : ∀ e ∈ o.v, e.1 ≠ l + 32 * n) :
    (b.write o).vreg l n = b.vreg l n := by
  unfold Beam.vreg FMap.getD
  exact congrArg (fun c => Option.getD c _) (look_putAll_of_not_mem b.v o.v _ h)

/-- A c register that a write does not name reads as before; `c0` always does. -/
theorem Beam.creg_write (b : Beam) (o : RegOut) (n : Nat) (h : n ≠ 0 → ∀ e ∈ o.c, e.1 ≠ b.ckey n) :
    (b.write o).creg n = b.creg n := by
  by_cases hn : n = 0
  · simp [Beam.creg, hn]
  · have hk : (b.write o).ckey n = b.ckey n := rfl
    simp only [Beam.creg, hn, if_false, hk]
    simp only [Beam.write, FMap.getD]
    rw [look_putAll_of_not_mem _ _ _ (fun e he => h hn e (List.mem_filter.1 he).1)]

/-- A matrix register of a lane that a write does not name reads as before. -/
theorem Beam.mreg_write (b : Beam) (o : RegOut) (l n : Nat) (h : ∀ e ∈ o.m, e.1 ≠ l + 32 * n) :
    (b.write o).mreg l n = b.mreg l n := by
  simp only [Beam.mreg, Beam.write, FMap.getD]
  rw [look_putAll_of_not_mem _ _ _ h]

/-- `c0` reads zero, and `p7` and `q7` read true (R29, R30). -/
theorem Beam.hardwired (b : Beam) (l : Nat) :
    b.creg 0 = {} ∧ b.preg l 7 = { val := true } ∧ b.qreg 7 = { val := true } := ⟨rfl, rfl, rfl⟩

/-! ### Virtual devices -/

theorem State.ErrorsOk.updVd {s : State} (h : s.ErrorsOk) (v : Nat) {f : VDev → VDev}
    (hf : ∀ d, d.errq.length ≤ 256 → (f d).errq.length ≤ 256) : (s.updVd v f).ErrorsOk :=
  FMap.all_upd (P := fun e : Nat × VDev => e.2.errq.length ≤ 256) h (fun d => hf d)

theorem State.NumbersOk.updVd {s : State} (h : s.NumbersOk) (v : Nat) (f : VDev → VDev) : (s.updVd v f).NumbersOk :=
  FMap.all_upd (P := fun e : Nat × VDev => e.1 < 64) h (fun _ h => h)

/-- An entry written keeps the bound: a full queue drops it (R379). -/
theorem State.ErrorsOk.pushErr {s : State} (h : s.ErrorsOk) (v : Nat) (e : BitVec 256) : (s.pushErr v e).ErrorsOk := by
  have : (s.updVd v (fun d =>
      if d.errq.length < 256 then { d with errq := d.errq ++ [e] } else { d with overflow := d.overflow + 1 })).ErrorsOk :=
    State.ErrorsOk.updVd h v (fun d hd => by split <;> simp <;> omega)
  exact this

theorem State.NumbersOk.pushErr {s : State} (h : s.NumbersOk) (v : Nat) (e : BitVec 256) : (s.pushErr v e).NumbersOk :=
  have : (s.updVd v (fun d =>
      if d.errq.length < 256 then { d with errq := d.errq ++ [e] } else { d with overflow := d.overflow + 1 })).NumbersOk :=
    State.NumbersOk.updVd h v _
  this

end Sys2Proof.Machine
end

