-- ==== Sys2Proof/Tests/Slice0.lean ====
section
/-!
SUPPORT. Tests: words of the encoding tables and what they decode to, checks that refuse ill-formed words, worked examples of
the manual, and for every statement a state and operands that meet its hypotheses.
-/
namespace Sys2Proof.Machine.Tests

set_option Elab.async false

/-! ### States for the tests -/

/-- A package in which the probe beam of slot 0 of core 0 comes to issue: its v, c and p registers read 0. -/
def probe : State := { State.reset.withWord 0 with cur := some (0, 0), agenda := [] }

/-- The state with the probe beam changed. -/
def onBeam (s : State) (f : Beam → Beam) : State := s.updBeam 0 0 f

/-- The state with the probe's team changed. -/
def onTeam (s : State) (f : Team → Team) : State := s.updTeam 0 none f

/-- The state with the probe's virtual device changed. -/
def onVd (s : State) (f : VDev → VDev) : State := s.updVd 0 f

/-- The state with the probe's launch changed. -/
def onLaunch (s : State) (f : Launch → Launch) : State := s.updLaunch 0 0 f

/-- The state with core 0 changed. -/
def onCore (s : State) (f : Core → Core) : State := s.updCore 0 f

/-- A v register of every lane set. -/
def setV (s : State) (n : Nat) (w : Word) : State :=
  onBeam s (fun b => { b with v := putAll b.v ((List.range 32).map (fun l => (l + 32 * n, { val := w }))) })

/-- A c register set. -/
def setC (s : State) (n : Nat) (w : Word) : State := onBeam s (fun b => { b with c := b.c.put n { val := w } })

/-- A matrix register of every lane set. -/
def setM (s : State) (n : Nat) (r : MReg) : State :=
  onBeam s (fun b => { b with m := putAll b.m ((List.range 32).map (fun l => (l + 32 * n, r))) })

/-- One thread only on the running path. -/
def oneLane (s : State) : State :=
  onBeam s (fun b => { b with flow := b.flow.setRun (fun p => { p with mask := 1 }) })

/-- Overlay 255 loaded in the probe's virtual device. -/
def withHandler (s : State) : State :=
  onVd s (fun d => { d with overlays := d.overlays.put 255 { cont := 0, image := 0, count := 1, digest := 0 } })

/-- The probe beam in a handler of a cause. -/
def inHandler (s : State) (cause : BitVec 8) : State :=
  onBeam s (fun b => { b with
    handler := some { cause := cause, frozen := b.flow, nas := none, sleep := .ready, pend := none } })

/-- The instruction passes its checks at issue, and a condition holds of it. -/
def meets (s : State) (i : Instr) (c : Iss → Bool) : Bool := match s.passes i with | some x => c x | none => false

/-- What a step leaves, looked at. -/
def after (o : Out) (c : State → Bool) : Bool := match o with | .next t => c t | _ => false

/-- What a v register of lane 0 of the probe holds after an instruction. -/
def vAfter (s : State) (i : Instr) (n : Nat) : Option Word :=
  match exec i s with | .next t => (t.beam? 0 0).map (fun b => (b.vreg 0 n).val) | _ => none

/-- The word that a result in flight puts in a v register of lane 0. -/
def vInFlight (s : State) (i : Instr) (n : Nat) : Option Word :=
  match exec i s with
  | .next t => t.fills.head?.bind (fun f => (FMap.look f.out.v (32 * n)).map (·.val))
  | _ => none

/-! ### Words written from the tables of R51 to R77 -/

/-- A head with every wait bit set, guard p7 or q7 not negated, selector seq, no other hint. -/
def hd (uni : Bool) (d a b c : Opnd) (imm : BitVec 20) : Head :=
  ⟨.seq, false, 7, uni, true, true, true, false, false, d, a, b, c, imm⟩

/-- Words of the integer instructions, each field placed by R51. -/
def aluWords : List (Nat × Instr) :=
  [(0x0003B800800007FF00800000, .add (hd false (.v 2) (.v 0) (.v 1) .none 0) ⟨.i32, .rne, true, 0⟩),
   (0x0043B800800FFBFF40000005, .sub (hd false (.v 2) (.v 0) .imm .none 5) ⟨.n64, .rne, false, 0⟩),
   (0x0083B8008000050328000000, .addc (hd false (.v 2) (.v 0) (.v 1) (.c 3) 0) ⟨.n32, .rne, false, 0⟩),
   (0x00C3F840903413FF28000000, .mul (hd true (.c 2) (.c 3) (.c 4) .none 0) ⟨.n32, .rne, false, 0⟩),
   (0x0103B80080401BFF18000000, .mulhi (hd false (.v 2) (.v 4) (.v 6) .none 0) ⟨.i64, .rne, false, 0⟩),
   (0x0143B8008000040200000000, .mad (hd false (.v 2) (.v 0) (.v 1) (.v 2) 0) ⟨.i32, .rne, false, 0⟩),
   (0x0183B800800007FF00800000, .div (hd false (.v 2) (.v 0) (.v 1) .none 0) ⟨.i32, .rne, true, 0⟩),
   (0x01C3B800800007FF28000000, .rem (hd false (.v 2) (.v 0) (.v 1) .none 0) ⟨.n32, .rne, false, 0⟩),
   (0x0203B800800007FF00000000, .min (hd false (.v 2) (.v 0) (.v 1) .none 0) ⟨.i32, .rne, false, 0⟩),
   (0x0243B800800007FF28000000, .max (hd false (.v 2) (.v 0) (.v 1) .none 0) ⟨.n32, .rne, false, 0⟩),
   (0x0283B800800FFFFF00800000, .abs (hd false (.v 2) (.v 0) .none .none 0) ⟨.i32, .rne, true, 0⟩),
   (0x02C3B800800FFFFF18000000, .neg (hd false (.v 2) (.v 0) .none .none 0) ⟨.i64, .rne, false, 0⟩),
   (0x0303B8C0301C0BFF00000000, .and (hd false (.p 0) (.p 1) (.p 2) .none 0) ⟨.i32, .rne, false, 0⟩),
   (0x0343B800800007FF28000000, .or (hd false (.v 2) (.v 0) (.v 1) .none 0) ⟨.n32, .rne, false, 0⟩),
   (0x0383F8C2309C2BFF00000000, .xor (hd true (.q 0) (.q 1) (.q 2) .none 0) ⟨.i32, .rne, false, 0⟩),
   (0x03C3B800800007FF00000000, .andn (hd false (.v 2) (.v 0) (.v 1) .none 0) ⟨.i32, .rne, false, 0⟩),
   (0x0403B800800FFBFF0000001F, .shl (hd false (.v 2) (.v 0) .imm .none 31) ⟨.i32, .rne, false, 0⟩),
   (0x0443B800800007FF28000000, .shr (hd false (.v 2) (.v 0) (.v 1) .none 0) ⟨.n32, .rne, false, 0⟩),
   (0x0483B800800007FF00000000, .sar (hd false (.v 2) (.v 0) (.v 1) .none 0) ⟨.i32, .rne, false, 0⟩),
   (0x04C3B800800007FF40000000, .rot (hd false (.v 2) (.v 0) (.v 1) .none 0) ⟨.n64, .rne, false, 0⟩),
   (0x0503B800800FFFFF28000000, .clz (hd false (.v 2) (.v 0) .none .none 0) ⟨.n32, .rne, false, 0⟩),
   (0x0543B800800FFFFF40000000, .ctz (hd false (.v 2) (.v 0) .none .none 0) ⟨.n64, .rne, false, 0⟩),
   (0x0583B800800FFFFF00000000, .popc (hd false (.v 2) (.v 0) .none .none 0) ⟨.i32, .rne, false, 0⟩),
   (0x05C3B800800FFFFF28000000, .brev (hd false (.v 2) (.v 0) .none .none 0) ⟨.n32, .rne, false, 0⟩),
   (0x0603B8008004050200000000, .bfx (hd false (.v 2) (.v 0) (.c 1) (.c 2) 0) ⟨.i32, .rne, false, 0⟩),
   (0x0643B8008004050228000000, .bfi (hd false (.v 2) (.v 0) (.c 1) (.c 2) 0) ⟨.n32, .rne, false, 0⟩),
   (0x0683B80080401BFE00000003, .lea (hd false (.v 2) (.v 4) (.v 6) .imm 3) ⟨.i32, .rne, false, 0⟩),
   (0x06C3B8008000070300000000, .sel (hd false (.v 2) (.v 0) (.v 1) (.p 3) 0) ⟨.i32, .rne, false, 0⟩),
   (0x0703B8C0000FFBFF002FFFFF, .cmp (hd false (.p 0) (.v 0) .imm .none 0xfffff) ⟨.i32, .rne, false, 2⟩),
   (0x0743B800905FFFFF00000000, .mov (hd false (.v 2) (.c 5) .none .none 0) ⟨.i32, .rne, false, 0⟩),
   (0x0783B800BFEFFFFF00080000, .movi (hd false (.v 2) .imm .none .none 0x80000) ⟨.i32, .rne, false, 0⟩),
   (0x07C3B800BFEFFFFF00000FFF, .movh (hd false (.v 2) .imm .none .none 0xfff) ⟨.i32, .rne, false, 0⟩),
   (0x0803B800801FFFFF08000000, .ext (hd false (.v 2) (.v 1) .none .none 0) ⟨.i8, .rne, false, 0⟩)]

theorem test_decode_alu : ∀ p ∈ aluWords, decodeTableWord 96 p.1 = some p.2 := by decide +kernel

/-- Words of the floating instructions, each field placed by R51. -/
def fltWords : List (Nat × Instr) :=
  [(0x1003B800800007FF53000000, .fadd (hd false (.v 2) (.v 0) (.v 1) .none 0) ⟨.f32, .rup, false, 0⟩),
   (0x1043B800800013FF58000000, .fsub (hd false (.v 2) (.v 0) (.v 4) .none 0) ⟨.f64, .rne, false, 0⟩),
   (0x1083B800800FFBFF6083F800, .fmul (hd false (.v 2) (.v 0) .imm .none 0x3f800) ⟨.f16, .rne, true, 0⟩),
   (0x10C3B800800004036C000000, .fma (hd false (.v 2) (.v 0) (.v 1) (.v 3) 0) ⟨.bf16, .rna, false, 0⟩),
   (0x1103B800800007FF50000000, .fmin (hd false (.v 2) (.v 0) (.v 1) .none 0) ⟨.f32, .rne, false, 0⟩),
   (0x1143B800800013FF58000000, .fmax (hd false (.v 2) (.v 0) (.v 4) .none 0) ⟨.f64, .rne, false, 0⟩),
   (0x1183B800800007FF60000000, .fminm (hd false (.v 2) (.v 0) (.v 1) .none 0) ⟨.f16, .rne, false, 0⟩),
   (0x11C3B800800007FF50000000, .fmaxm (hd false (.v 2) (.v 0) (.v 1) .none 0) ⟨.f32, .rne, false, 0⟩),
   (0x1203B8C0000007FF50700000, .fcmp (hd false (.p 0) (.v 0) (.v 1) .none 0) ⟨.f32, .rne, false, 7⟩),
   (0x1243B800800FFFFF50000000, .fclass (hd false (.v 2) (.v 0) .none .none 0) ⟨.f32, .rne, false, 0⟩),
   (0x1283B800800007FF51000000, .fdiv (hd false (.v 2) (.v 0) (.v 1) .none 0) ⟨.f32, .rtz, false, 0⟩),
   (0x12C3B800800FFFFF50000000, .frcp (hd false (.v 2) (.v 0) .none .none 0) ⟨.f32, .rne, false, 0⟩),
   (0x1303B800800FFFFF58000000, .fsqrt (hd false (.v 2) (.v 0) .none .none 0) ⟨.f64, .rne, false, 0⟩),
   (0x1343B800800FFFFF50000000, .frsq (hd false (.v 2) (.v 0) .none .none 0) ⟨.f32, .rne, false, 0⟩),
   (0x1383B800800FFFFF60000000, .fexp2 (hd false (.v 2) (.v 0) .none .none 0) ⟨.f16, .rne, false, 0⟩),
   (0x13C3B800800FFFFF50000000, .flog2 (hd false (.v 2) (.v 0) .none .none 0) ⟨.f32, .rne, false, 0⟩),
   (0x1403B800800FFFFF50000000, .fsin (hd false (.v 2) (.v 0) .none .none 0) ⟨.f32, .rne, false, 0⟩),
   (0x1443B800800FFFFF50000000, .fcos (hd false (.v 2) (.v 0) .none .none 0) ⟨.f32, .rne, false, 0⟩),
   (0x1483B800800FFFFF68000000, .ftanh (hd false (.v 2) (.v 0) .none .none 0) ⟨.bf16, .rne, false, 0⟩),
   (0x14C3B800800007FF50000000, .fscale (hd false (.v 2) (.v 0) (.v 1) .none 0) ⟨.f32, .rne, false, 0⟩),
   (0x1503B800800FFFFF52000000, .frint (hd false (.v 2) (.v 0) .none .none 0) ⟨.f32, .rdn, false, 0⟩)]

theorem test_decode_flt : ∀ p ∈ fltWords, decodeTableWord 96 p.1 = some p.2 := by decide +kernel

/-- Words of the conversion instructions, each field placed by R51. -/
def cvtWords : List (Nat × Instr) :=
  [(0x2043B800800FFFFF62800000, .cvt (hd false (.v 2) (.v 0) .none .none 0) ⟨.f16, .f32, .rtz, false⟩),
   (0x2203B800800007FF72A00000, .cvtq (hd false (.v 2) (.v 0) (.v 1) .none 0) ⟨.e4m3, .f32, .rne, true⟩),
   (0x24C3B800800007FF50400000, .cvtd (hd false (.v 2) (.v 0) (.v 1) .none 0) ⟨.f32, .i8, .rup, false⟩),
   (0x2603B8008000040353000000, .dot2 (hd false (.v 2) (.v 0) (.v 1) (.v 3) 0) ⟨.f32, .f16, .rne, false⟩),
   (0x2803B8008000040300400000, .dot4 (hd false (.v 2) (.v 0) (.v 1) (.v 3) 0) ⟨.i32, .i8, .rne, false⟩),
   (0x2B03B8008000040354800000, .dot8 (hd false (.v 2) (.v 0) (.v 1) (.v 3) 0) ⟨.f32, .e2m1, .rna, false⟩),
   (0x2C03B800800FFFFFBA800000, .packb (hd false (.v 2) (.v 0) .none .none 0) ⟨.mxe2m1, .f32, .rne, false⟩),
   (0x2E03B800800FFFFF56800000, .unpackb (hd false (.v 2) (.v 0) .none .none 0) ⟨.f32, .lum4, .rne, false⟩)]

theorem test_decode_cvt : ∀ p ∈ cvtWords, decodeTableWord 96 p.1 = some p.2 := by decide +kernel

/-- Words of the matrix instructions, each field placed by R51. -/
def matWords : List (Nat × Instr) :=
  [(0x3003B8803FEFFFFF50000101, .mshape (hd false (.m 0) .imm .none .none 0x101) ⟨.f32, .rne, false, 0⟩),
   (0x3043B8803FEFFFFF00000202, .mzero (hd false (.m 0) .imm .none .none 0x202) ⟨.i32, .rne, false, 0⟩),
   (0x3083B880000FFFFF65800000, .mfill (hd false (.m 0) (.v 0) .none .none 0) ⟨.f16, .rfmt, true, 0⟩),
   (0x30C3B880000FFBFF50000000, .mld (hd false (.m 0) (.v 0) .imm .none 0) ⟨.f32, .rne, false, 0⟩),
   (0x3103B880000FFBFF00000000, .mst (hd false (.m 0) (.v 0) .imm .none 0) ⟨.i32, .rne, false, 0⟩),
   (0x3143B800A00FFBFF50000011, .mget (hd false (.v 2) (.m 0) .imm .none 17) ⟨.f32, .rne, false, 0⟩),
   (0x3183B880000FFBFF00000000, .mset (hd false (.m 0) (.v 0) .imm .none 0) ⟨.i32, .rne, false, 0⟩),
   (0x31C3B880201FFFFF00000000, .mmov (hd false (.m 0) (.m 1) .none .none 0) ⟨.i32, .rne, false, 0⟩),
   (0x3343B880201FFFFF62800000, .mcvt (hd false (.m 0) (.m 1) .none .none 0) ⟨.f16, .f32, .rfmt, false⟩),
   (0x3403B88020180A0300400000, .mma (hd false (.m 0) (.m 1) (.m 2) (.m 3) 0) ⟨.i32, .rne, false, 4⟩),
   (0x3443B8802018090200100000, .mmasp (hd false (.m 0) (.m 1) (.m 2) (.c 2) 0) ⟨.i32, .rne, false, 1⟩),
   (0x3483B880201FFFFF00000000, .mtrn (hd false (.m 0) (.m 1) .none .none 0) ⟨.i32, .rne, false, 0⟩),
   (0x34C3B88020180BFF50100000, .madd (hd false (.m 0) (.m 1) (.m 2) .none 0) ⟨.f32, .rne, false, 1⟩),
   (0x3503B88020180BFF00000000, .mhad (hd false (.m 0) (.m 1) (.m 2) .none 0) ⟨.i32, .rne, false, 0⟩),
   (0x3543B880201FFFFF58000000, .minv (hd false (.m 0) (.m 1) .none .none 0) ⟨.f64, .rne, false, 0⟩),
   (0x3583B88020100BFF50000000, .mlu (hd false (.m 0) (.m 1) (.v 2) .none 0) ⟨.f32, .rne, false, 0⟩),
   (0x35C3B880201FFFFF50000000, .mchol (hd false (.m 0) (.m 1) .none .none 0) ⟨.f32, .rne, false, 0⟩),
   (0x3603B88020180BFF58000000, .msolve (hd false (.m 0) (.m 1) (.m 2) .none 0) ⟨.f64, .rne, false, 0⟩),
   (0x3643B880201FFFFF50000000, .mexp (hd false (.m 0) (.m 1) .none .none 0) ⟨.f32, .rne, false, 0⟩),
   (0x3683B880201FFFFF00600000, .mred (hd false (.m 0) (.m 1) .none .none 0) ⟨.i32, .rne, false, 6⟩)]

theorem test_decode_mat : ∀ p ∈ matWords, decodeTableWord 96 p.1 = some p.2 := by decide +kernel

/-- Words of the lane instructions, each field placed by R51. -/
def lanWords : List (Nat × Instr) :=
  [(0x4003B800800FFBFF00300001, .shfl (hd false (.v 2) (.v 0) .imm .none 1) ⟨.i32, .rne, false, 3⟩),
   (0x4043B800B01FFFFF00300000, .vote (hd false (.v 2) (.p 1) .none .none 0) ⟨.i32, .rne, false, 3⟩),
   (0x4083B800800FFFFF50000000, .redLane (hd false (.v 2) (.v 0) .none .none 0) ⟨.f32, .rne, false, 0⟩),
   (0x40C3B800800FFFFF18100000, .scan (hd false (.v 2) (.v 0) .none .none 0) ⟨.i64, .rne, false, 1⟩),
   (0x4103F8FFFFEFFFFF00000008, .part (hd true .none .imm .none .none 8) ⟨.i32, .rne, false, 0⟩),
   (0x4143B8C03FFFFFFF00000000, .lead (hd false (.p 0) .none .none .none 0) ⟨.i32, .rne, false, 0⟩),
   (0x4183B800800007FF00000000, .rebal (hd false (.v 2) (.v 0) (.v 1) .none 0) ⟨.i32, .rne, false, 0⟩),
   (0x41C3B802000FFBFF50000204, .topk (hd false (.v 8) (.v 0) .imm .none 0x204) ⟨.f32, .rne, false, 0⟩)]

theorem test_decode_lan : ∀ p ∈ lanWords, decodeTableWord 96 p.1 = some p.2 := by decide +kernel

/-- Words of the scratchpad instructions, each field placed by R51. -/
def spdWords : List (Nat × Instr) :=
  [(0x5003B801000FFFFF2C900000, .ld (hd false (.v 4) (.v 0) .none .none 0) ⟨.n32, 2, .acq, .team⟩),
   (0x5043B801000FFFFF10000000, .st (hd false (.v 4) (.v 0) .none .none 0) ⟨.i16, 0, .rlx, .beam⟩),
   (0x5083F841102FFFFF40000000, .lds (hd true (.c 4) (.c 2) .none .none 0) ⟨.n64, 0, .rlx, .beam⟩),
   (0x50C3F8413FEFFFFF29300040, .sts (hd true (.c 4) .imm .none .none 64) ⟨.n32, 0, .rel, .dev⟩),
   (0x5103B8008000040303800000, .atoms (hd false (.v 2) (.v 0) (.v 1) (.v 3) 0) ⟨.i32, .cswap, .beam, .rlx⟩),
   (0x5143B8FFC00007FF54900000, .reds (hd false .none (.v 0) (.v 1) .none 0) ⟨.f32, .fmax, .team, .rlx⟩)]

theorem test_decode_spd : ∀ p ∈ spdWords, decodeTableWord 96 p.1 = some p.2 := by decide +kernel

/-- Words of the global memory instructions, each field placed by R51. -/
def glbWords : List (Nat × Instr) :=
  [(0x6003B80080401BFE80000001, .copy (hd false (.v 2) (.v 4) (.v 6) .imm 1) ⟨2, false⟩),
   (0x6043F841108FFD0260000000, .bcopy (hd true (.c 4) (.c 8) .none (.c 2) 0) ⟨1, true⟩),
   (0x6083B80080401BFE00000002, .ncopy (hd false (.v 2) (.v 4) (.v 6) .imm 2) ⟨0, false⟩),
   (0x60C3B800804FFBFF1CB00008, .lda (hd false (.v 2) (.v 4) .imm .none 8) ⟨.i64, true, .acq, .dev⟩),
   (0x6103B800804FFFFF01400000, .str (hd false (.v 2) (.v 4) .none .none 0) ⟨.i32, false, .rel, .sys⟩),
   (0x6143B8FFC0000BFF00000000, .svst (hd false .none (.v 0) (.v 2) .none 0)),
   (0x62C3B80080401BFF40300000, .atom (hd false (.v 2) (.v 4) (.v 6) .none 0) ⟨.n64, .add, .dev, .ar⟩),
   (0x6383B8FFC0401BFF02B00000, .redGlobal (hd false .none (.v 4) (.v 6) .none 0) ⟨.i32, .xor, .dev, .rel⟩)]

theorem test_decode_glb : ∀ p ∈ glbWords, decodeTableWord 96 p.1 = some p.2 := by decide +kernel

/-- Words of the synchronisation instructions, each field placed by R51. -/
def synWords : List (Nat × Instr) :=
  [(0x7003F8FFFFFFFFFF00B00000, .fence (hd true .none .none .none .none 0) ⟨.acq, .dev⟩),
   (0x7043F8FFFFEFFFFF0000000F, .bar (hd true .none .imm .none .none 15)),
   (0x7083F8FFFFEFFFFF00000003, .cbar (hd true .none .imm .none .none 3)),
   (0x70C3F8FFFFE40BFF00000001, .wait (hd true .none .imm (.c 2) .none 1)),
   (0x7103F8FFFFEFFD0200000001, .arrive (hd true .none .imm .none (.c 2) 1)),
   (0x7143F8FFFFFFFFFF00000000, .trigger (hd true .none .none .none .none 0)),
   (0x7183B8FFC00FFBFF00000002, .spawn (hd false .none (.v 0) .imm .none 2)),
   (0x7183B8C0000FFBFF02000002, .spawnTry (hd false (.p 0) (.v 0) .imm .none 2)),
   (0x71C3F8FFFFEFFFFF00000064, .sleep (hd true .none .imm .none .none 100))]

theorem test_decode_syn : ∀ p ∈ synWords, decodeTableWord 96 p.1 = some p.2 := by decide +kernel

/-- Words of the directory and census instructions, each field placed by R51. -/
def dirWords : List (Nat × Instr) :=
  [(0x8003B8020020100600000000, .dirput (hd false (.v 8) (.v 2) (.v 4) (.v 6) 0)),
   (0x8043B800800FFFFF00000000, .dirdel (hd false (.v 2) (.v 0) .none .none 0)),
   (0x8083B800800007FF00000000, .dirmove (hd false (.v 2) (.v 0) (.v 1) .none 0)),
   (0x80C3B802000FFFFF00000000, .dirq (hd false (.v 8) (.v 0) .none .none 0)),
   (0x8103F8411084290CA0300000, .solicit (hd true (.c 4) (.c 8) (.c 10) (.c 12) 0) .count),
   (0x8143B8FFC02FFFFF00000000, .respond (hd false .none (.v 2) .none .none 0))]

theorem test_decode_dir : ∀ p ∈ dirWords, decodeTableWord 96 p.1 = some p.2 := by decide +kernel

/-- Words of the control instructions, each field placed by R51. -/
def ctlWords : List (Nat × Instr) :=
  [(0x9003B8FFFFFFFFFF00000000, .nop (hd false .none .none .none .none 0)),
   (0x9043F8FFFFEFFFFF00000004, .joinat (hd true .none .imm .none .none 4)),
   (0x9083F8FFFFEFFFFF000003FF, .lpad (hd true .none .imm .none .none 0x3ff)),
   (0x90C3F8413FE40BFF00000007, .ovl (hd true (.c 4) .imm (.c 2) .none 7)),
   (0x9103B8FFFFEFFFFF00000009, .brk (hd false .none .imm .none .none 9))]

theorem test_decode_ctl : ∀ p ∈ ctlWords, decodeTableWord 96 p.1 = some p.2 := by decide +kernel

/-- Words of the system instructions, each field placed by R51. -/
def sysWords : List (Nat × Instr) :=
  [(0xA003F8FFFFEFFFFF00000003, .trap (hd true .none .imm .none .none 3)),
   (0xA043F8FFFFFFFFFF00000000, .rte (hd true .none .none .none .none 0)),
   (0xA083B800B1DFFFFF00000000, .sread (hd false (.v 2) (.spr .taddr) .none .none 0)),
   (0xA0C3F8C6503FFFFF00000000, .swrite (hd true (.spr .emask) (.c 3) .none .none 0)),
   (0xA103F8FFFFEFFFFF00052942, .fmt (hd true .none .imm .none .none 0x52942)),
   (0xA143F841102FFFFF00000000, .ctxsv (hd true (.c 4) (.c 2) .none .none 0)),
   (0xA183F841102FFFFF00000000, .ctxld (hd true (.c 4) (.c 2) .none .none 0)),
   (0xA1C3F8423FEFFFFF00000000, .errq (hd true (.c 8) .imm .none .none 0)),
   (0xA203F8FFFFEFFFFF00000001, .kill (hd true .none .imm .none .none 1))]

theorem test_decode_sys : ∀ p ∈ sysWords, decodeTableWord 96 p.1 = some p.2 := by decide +kernel

/-- Every word above passes the checks at issue in the probe state, so that the statements about an instruction that passes are
about something. -/
theorem witness_passes_alu : ∀ p ∈ aluWords, (probe.passes p.2).isSome = true := by decide +kernel
theorem witness_passes_flt : ∀ p ∈ fltWords, (probe.passes p.2).isSome = true := by decide +kernel
theorem witness_passes_cvt : ∀ p ∈ cvtWords, (probe.passes p.2).isSome = true := by decide +kernel
theorem witness_passes_mat : ∀ p ∈ matWords, (probe.passes p.2).isSome = true := by decide +kernel
theorem witness_passes_lan : ∀ p ∈ lanWords, (probe.passes p.2).isSome = true := by decide +kernel
theorem witness_passes_spd : ∀ p ∈ spdWords, (probe.passes p.2).isSome = true := by decide +kernel
theorem witness_passes_glb : ∀ p ∈ glbWords, (probe.passes p.2).isSome = true := by decide +kernel
theorem witness_passes_syn : ∀ p ∈ synWords, (probe.passes p.2).isSome = true := by decide +kernel
theorem witness_passes_dir : ∀ p ∈ dirWords, (probe.passes p.2).isSome = true := by decide +kernel
theorem witness_passes_ctl : ∀ p ∈ ctlWords, (probe.passes p.2).isSome = true := by decide +kernel
theorem witness_passes_sys : ∀ p ∈ sysWords, ((inHandler probe 0x12).passes p.2).isSome = true := by decide +kernel

/-! ### Checks that refuse (R79) -/

/-- Each check of R79 refuses an instruction, with its reason: U of a per-thread only mnemonic; `fadd` of an integer type; an odd
pair; an m register in an integer position; a register beyond its count; an immediate that nothing uses; REUSE without a
register; a handler-only use. -/
theorem test_ill_formed :
    Instr.reason Limits.free (.shfl (hd true (.c 2) (.c 1) .imm .none 1) ⟨.i32, .rne, false, 0⟩) = some 3 ∧
    Instr.reason Limits.free (.fadd (hd false (.v 2) (.v 0) (.v 1) .none 0) ⟨.i32, .rne, false, 0⟩) = some 4 ∧
    Instr.reason Limits.free (.cvt (hd false (.v 2) (.v 0) .none .none 0) ⟨.f16, .f32, .rfmt, false⟩) = some 4 ∧
    Instr.reason Limits.free (.add (hd false (.v 3) (.v 0) (.v 4) .none 0) ⟨.i64, .rne, false, 0⟩) = some 5 ∧
    Instr.reason Limits.free (.add (hd false (.v 3) (.m 0) (.v 4) .none 0) ⟨.i32, .rne, false, 0⟩) = some 5 ∧
    Instr.reason ⟨4, 64, 16, true, true⟩ (.add (hd false (.v 4) (.v 0) (.v 1) .none 0) ⟨.i32, .rne, false, 0⟩) = some 6 ∧
    Instr.reason Limits.free (.add (hd false (.v 3) (.v 0) (.v 4) .none 1) ⟨.i32, .rne, false, 0⟩) = some 7 ∧
    Instr.reason Limits.free (.add { hd false (.v 3) (.v 0) .imm .none 1 with reuse := true } ⟨.i32, .rne, false, 0⟩) = some 8 ∧
    Instr.reason Limits.free (.add { hd false (.v 3) (.v 0) .imm .none 1 with wc := false } ⟨.i32, .rne, false, 0⟩) = some 8 ∧
    Instr.reason ⟨256, 64, 16, false, false⟩ (.rte (hd true .none .none .none .none 0)) = some 9 := by decide +kernel

/-- The decoder refuses what no instruction can say: an unassigned function, NAS 110, a reserved operand field, a reserved type
code, bit 72 (R76, R77, R79). -/
theorem test_decoder_refuses :
    illegalReason Limits.free (BitVec.ofNat 96 (0x021 * 2 ^ 86)) = some 1 ∧
    illegalReason Limits.free (BitVec.ofNat 96 0x00340380_00300003_00000000) = some 2 ∧
    illegalReason Limits.free (BitVec.ofNat 96 0x0003B800_801007FF_E0000000) = some 4 ∧
    illegalReason Limits.free (BitVec.ofNat 96 0x0003B800_9E1007FF_00000000) = some 5 ∧
    illegalReason Limits.free (BitVec.ofNat 96 0x0003B900_800007FF_00000000) = some 8 := by decide +kernel

/-! ### Witnesses: integers and floating point -/

/-- div by zero, by minus one of the least number, and an ordinary quotient; shift counts 0, 31, 32; a field of length 0 and one
beyond the width. -/
theorem witness_IntegerCorners :
    (∀ p ∈ [(-2 ^ 31, 0), (-2 ^ 31, -1), (7, -2)],
      meets (setV (setV probe 0 (BitVec.ofInt 32 p.1)) 1 (BitVec.ofInt 32 p.2)) (.div (hd false (.v 2) (.v 0) (.v 1) .none 0) ⟨.i32, .rne, true, 0⟩)
        (fun x => x.aInt .i32 0 == p.1 && x.bInt .i32 0 == p.2) = true) ∧
    (∀ n ∈ [0, 31, 32], meets (setV probe 1 (BitVec.ofNat 32 n)) (.shl (hd false (.v 2) (.v 0) (.v 1) .none 0) ⟨.i32, .rne, false, 0⟩)
        (fun x => x.bCount 0 == n) = true) ∧
    (∀ n ∈ [0, 32, 33], meets (setC probe 2 (BitVec.ofNat 32 n)) (.bfx (hd false (.v 2) (.v 0) (.c 1) (.c 2) 0) ⟨.i32, .rne, false, 0⟩)
        (fun x => x.cCount 0 == n) = true) ∧
    (hd false (.p 0) (.p 1) (.p 2) .none 0).d.isPred = true ∧ (hd false (.v 0) (.v 1) (.v 2) .none 0).d.isPred = false := by
  decide +kernel

theorem witness_RoundingChoosesTheNeighbour :
    Ty.f32.isFloat = true ∧ Rnd.rup ∈ modes ∧ (numberOf (.fin false 1 (-200))).abs ≤ numberOf (Ty.f32.decode Ty.f32.largest) ∧
      (numberOf (.fin true 0xFFFFFF 104)).abs ≤ numberOf (Ty.f32.decode Ty.f32.largest) ∧
      2 * numberOf (Ty.f32.decode Ty.f32.largest) ≤ (numberOf (.fin true 1 129)).abs ∧
      (∀ m ∈ [463, 464, 470], Ty.e4m3.isFloat = true ∧ Rnd.rne ∈ modes ∧ numberOf (Ty.e4m3.decode Ty.e4m3.largest) < (numberOf (.fin true m 0)).abs ∧
        (numberOf (.fin true m 0)).abs < 2 * numberOf (Ty.e4m3.decode Ty.e4m3.largest)) := by decide +kernel

theorem witness_ExactArithmetic :
    Ty.e4m3.isFloat = true ∧ 15 < 2 ^ Ty.e4m3.ebits ∧ 6 < 2 ^ Ty.e4m3.mant ∧ Ty.e4m3.ieee = false ∧ ¬((15 : Nat) = 15 ∧ (6 : Nat) = 7) ∧
      Ty.f32.ieee = true ∧ 254 ≠ 2 ^ Ty.f32.ebits - 1 ∧ finite (.fin true 3 (-1)) = true ∧
      numberOf (Ext.sum true [.fin true 1 0, .fin false 1 0]) = 0 ∧ Ext.inf true ∈ [Ext.inf true, .fin false 1 0] ∧
      Ext.nan ∉ [Ext.inf true, .fin false 1 0] := by decide +kernel

theorem witness_FloatArithmeticRoundsOnce : ∀ m ∈ [Rnd.rne, .rtz, .rdn, .rup, .rna], m ∈ modes := by decide

theorem witness_QuotientRoundsOnce :
    Ty.f16.isFp1 = true ∧ Rnd.rna ∈ modes ∧ finite (.fin false 1 0) = true ∧ finite (.fin true 3 0) = true ∧
      numberOf (.fin true 3 0) ≠ 0 ∧
      (numberOf (.fin false 1 0) / numberOf (.fin true 3 0)).abs ≤ numberOf (Ty.f16.decode Ty.f16.largest) := by decide +kernel

/-- Operands of the roots, of fexp2 of integers, of large operands, and of small ones with their codes. -/
theorem witness_FloatFunctionsComplete :
    Ty.bf16.isFp1 = true ∧ (5 : Nat) ≠ 0 ∧ Rnd.rdn ∈ modes ∧ (-1022 : Int) ≠ 0 ∧ (-1022 : Int).natAbs < 2 ^ 14 ∧
    (let y := numberOf (.fin false 3 100)
     let top := numberOf (Ty.bf16.decode Ty.bf16.largest)
     y ≤ top * top ∧ 1 / y ≤ top * top) ∧
    2 ^ 14 ≤ (numberOf (.fin true 2 13)).abs ∧ 2 ^ 7 ≤ (numberOf (.fin true 1 7)).abs ∧
    (numberOf (.fin true 1 (-133))).abs < 2 ^ (-(Ty.bf16.mant : Int) - 8) ∧ (numberOf (.fin true 1 (-133))).abs < 2 ^ (-(Ty.bf16.mant : Int) - 6) ∧
    Ty.bf16.decode 0x8001 = .fin true 1 (-133) ∧ 0x8001 < 2 ^ Ty.bf16.width := by decide +kernel

/-- MX and Lumen types with their scale bytes 255 and less. -/
theorem witness_BlocksAcrossLanes :
    Ty.mxe2m1.isMx = true ∧ 31 < 32 ∧ (2 ^ 128 * 255 / 2 ^ (32 * Ty.mxe2m1.mxElem.width) % 256 = 255) ∧ Ty.mxi8.mxElem = .i8 ∧
      Ty.mxe2m1.mxElem ≠ .i8 ∧ Ty.lum4.isLum = true ∧ 15 < 16 ∧ 0x1FF % 256 = 255 ∧ 0x180 % 256 ≠ 255 := by decide +kernel

/-- Values of a block: with a NaN, with an infinity, all zeros, and of magnitudes below 2^k+1; an element beyond the largest finite one; a
Lumen magnitude that rounds within M bits and one beyond; a list of two blocks. -/
theorem witness_BlocksBuilt :
    Rnd.rup ∈ modes ∧ (List.replicate 32 (Ext.fin false 3 0)).length = Ty.mxe4m3.blockLen ∧ (List.replicate 16 (Ext.inf true)).length = Ty.lum7.blockLen ∧
    Ext.nan ∈ [Ext.nan, .inf true] ∧ Ext.inf true ∈ [Ext.nan, .inf true] ∧ blockNumber [.fin true 3 0, .fin false 1 0] 0 = -3 ∧
    (∀ i < 32, blockNumber [] i = 0) ∧ (2 : Rat) ^ (1 : Int) ≤ (blockNumber [.fin true 3 0] 0).abs ∧ (blockNumber [.fin true 3 0] 0).abs < (2 : Rat) ^ (1 + 1 : Int) ∧
    numberOf (Ty.e4m3.decode Ty.e4m3.largest) = 448 ∧ RintsTo .rne (5 / 2) 2 ∧ RintsTo .rdn (-5 / 2) (-3) ∧ RintsTo .rna (159 / 10) 16 ∧
    ¬(2 ^ Ty.lum4.lumBits - 1 < (2 : Int).natAbs) ∧ 2 ^ Ty.lum4.lumBits - 1 < (16 : Int).natAbs ∧ Ty.mxi8.isBlock = true ∧
    Ty.mxi8.blockLen ∣ (List.replicate 64 (Ext.fin false 3 0)).length := by
  unfold RintsTo; decide +kernel

/-! ### Worked examples of the manual -/

/-- R90: eight values as a LUM4 block, byte 0 lowest. -/
theorem test_lum4_block :
    buildBlock .lum4 .rne false (([(false, 3, 0), (true, 5, -2), (false, 3, -3), (false, 1, -2), (false, 0, 0), (true, 0, 0), (false, 1, 0),
      (false, 0xE66666, -24)].map (fun p => Ext.fin p.1 p.2.1 p.2.2)) ++ List.replicate 8 (.fin false 0 0)) =
      0x00_00_00_3A_20_01_0E_AC_0A_80 := by decide +kernel

/-- R87: 5.0 and -0.3 in an MXE2M1 block of scale 127 have codes 0x6 and 0x9. -/
theorem test_mxe2m1_block :
    buildBlock .mxe2m1 .rne false ([Ext.fin false 5 0, Ty.f32.decode 0xBE99999A] ++ List.replicate 30 (.fin false 0 0)) =
      127 * 2 ^ 128 + 0x96 := by decide +kernel

/-- R93: 470 and 464 to E4M3 with and without .sat. -/
theorem test_e4m3_overflow :
    Ty.e4m3.round .rne false (.fin false 470 0) = 0x7F ∧ Ty.e4m3.round .rne true (.fin false 470 0) = 0x7E ∧
      Ty.e4m3.round .rne false (.fin false 464 0) = 0x7E := by decide +kernel

/-- R81: the codes of 1.0, -2.5, 448 and 2^-9. -/
theorem test_codes :
    [Ty.f32, .f16, .bf16, .e4m3, .e5m2].map (fun t => t.round .rne false (.fin true 5 (-1))) = [0xC0200000, 0xC100, 0xC020, 0xC2, 0xC1] ∧
    [Ty.f32, .f16, .bf16, .e4m3, .e5m2].map (fun t => t.round .rne false (.fin false 1 (-9))) =
      [0x3B000000, 0x1800, 0x3B00, 0x01, 0x18] := by decide +kernel

/-! ### Witnesses: matrices -/

/-- A 2 by 2 FP32 matrix of ones. -/
def ones2 : MReg := { rows := 2, cols := 2, tag := .f32, img := (List.replicate 4 [0, 0, 0x80, 0x3F]).flatten }

/-- Every matrix instruction passes with threads that execute, a free prism and nothing in flight: on void registers, and on 2 by 2
registers. -/
theorem witness_MatrixPrisms :
    ∀ s ∈ [probe, setM (setM (setM probe 0 ones2) 1 ones2) 2 ones2], ∀ p ∈ matWords,
      meets s p.2 (fun x => !x.lanes.isEmpty && !s.prismBusy x && !s.mHeld x && !s.acquiring x x.threads) = true := by
  decide +kernel

theorem witness_MatrixShapesAndElements_images :
    Ty.e3m2.isBlock = false ∧ Ty.e3m2.width = 6 ∧ 4 < [1, 2, 3, 4, 5].length ∧ Ty.i4.isBlock = false ∧ 2 < [1, 2, 3].length := by decide

/-- mred of a non-empty register of the word's type, by rows and by columns. -/
theorem witness_MatrixElementwiseAndReductions :
    ∀ sub ∈ [0#3, 5#3], meets (setM probe 1 ones2) (.mred (hd false (.m 0) (.m 1) .none .none 0) ⟨.f32, .rfmt, false, sub⟩)
      (fun x => (x.mat x.h.a 0).tag == .f32 && !(x.mat x.h.a 0).void) = true := by decide +kernel

/-- mld and mst whose image ends at the allocation's end, one word past it, and at an offset that is no multiple of 4; no earlier
lane fails. -/
theorem witness_MatrixLoadsAndStores :
    ∀ p ∈ [(4080, true), (4084, false), (2, false)],
      (meets (setM (setV probe 0 (BitVec.ofNat 32 p.1)) 0 ones2) (.mld (hd false (.m 0) (.v 0) .imm .none 0) ⟨.f32, .rne, false, 0⟩)
        (fun x => x.lanes.head? == some 0 && firstOf (accessChecks x 0 .f32 ++ resultChecks x .f32 2 2) == none &&
          (decide (x.val x.h.a .n32 0 % 4 = 0 ∧ x.val x.h.b .n32 0 % 4 = 0 ∧ ∀ r ∈ runsOf x 0 .f32, r.1 + r.2 ≤ x.f.t.decl.spad)) == p.2)
        = true) ∧
      (meets (setM (setV probe 0 (BitVec.ofNat 32 p.1)) 0 ones2) (.mst (hd false (.m 0) (.v 0) .imm .none 0) ⟨.i32, .rne, false, 0⟩)
        (fun x => firstOf (accessChecks x 0 .f32) == none &&
          (decide (x.val x.h.a .n32 0 % 4 = 0 ∧ x.val x.h.b .n32 0 % 4 = 0 ∧ ∀ r ∈ runsOf x 0 .f32, r.1 + r.2 ≤ x.f.t.decl.spad)) == p.2)
        = true) := by decide +kernel

theorem witness_MatrixFactorisations :
    (mcholRows .f32 .rne 1 [[.fin false 4 0]]).toOption.isSome = true ∧ (mluRows .f32 .rne 1 [[.fin false 4 0]]).toOption.isSome = true ∧
    (∃ r ∈ [[Ext.nan, .fin false 1 0], [.fin false 1 0, .fin false 1 0]], ∃ v ∈ r, finite v = false) ∧
    ([[Ext.nan, .fin false 1 0], [.fin false 1 0, .fin false 1 0]].length = 2) := by decide +kernel

/-- Pivots of which the second outranks the first: a larger one, a NaN; and not: a tie, beside a NaN. Matrices of which mchol has a
factor, and that it refuses at column 1. -/
theorem witness_PivotsAndFactors :
    (∀ p ∈ [(Ext.fin true 3 0, Ext.fin false 2 0, true), (.nan, .inf false, true), (.fin true 2 0, .fin false 2 0, false), (.inf false, .nan, false)],
      Outranks p.1 p.2.1 ↔ p.2.2 = true) ∧
    (∀ p ∈ [(5, true), (1, false)], ((mcholRows .f32 .rne 2 [[.fin false 4 0, .fin false 2 0], [.fin false 2 0, .fin false p.1 0]]).toOption.isSome = p.2)) ∧
    ([[Ext.fin false 4 0, .fin false 2 0], [.fin false 2 0, .fin false 5 0]].length = 2) := by
  unfold Outranks; decide +kernel

/-- R173: a constant whose FMT an assembler writes for FP32 operands, and the one at launch, are admitted. -/
theorem test_fmt_words : fmtOk 0x52940200 = true ∧ fmtOk 0x6B540000 = true := by decide +kernel

/-! ### Witnesses: lanes, scratchpad, global memory -/

/-- part of 32, the widest tile, and of 3, which is none; topk of a v register. -/
theorem witness_LaneMovesAndVotes :
    (∀ n ∈ [1, 32, 3], meets probe (.part (hd true .none .imm .none .none (BitVec.ofNat 20 n)) ⟨.i32, .rne, false, 0⟩)
      (fun x => !x.lanes.isEmpty && x.val x.h.a .n32 0 == n) = true) ∧
    meets probe (.topk (hd false (.v 8) (.v 0) .imm .none 0x204) ⟨.f32, .rne, false, 0⟩) (fun x => x.h.a == .v 0) = true := by
  decide +kernel

/-- Logits of topk: finite and equal, finite beside a minus infinity, minus infinities alone, a plus infinity, a NaN. -/
theorem witness_Logits :
    ∀ p ∈ [(0x3F800000, 0x3F800000, Ext.fin false 0x800000 (-23), Ext.fin false 0x800000 (-23)), (0x3F800000, 0xFF800000, .fin false 0x800000 (-23), .inf true),
        (0xFF800000, 0xFF800000, .inf true, .inf true), (0x7F800000, 0x3F800000, .inf false, .fin false 0x800000 (-23)), (0x7FC00000, 0xFF800000, .nan, .inf true)],
      meets (setV (setV probe 0 (BitVec.ofNat 32 p.1)) 1 (BitVec.ofNat 32 p.2.1)) (.topk (hd false (.v 8) (.v 0) .imm .none 0x202) ⟨.f32, .rne, false, 0⟩)
        (fun x => x.h.a == .v 0 && x.h.imm.toNat % 2 ^ 5 == 2 && x.h.imm.toNat / 2 ^ 8 % 2 ^ 4 == 2 &&
          Ty.f32.decode (x.f.b.vreg 0 0).val.toNat == p.2.2.1 && Ty.f32.decode (x.f.b.vreg 0 1).val.toNat == p.2.2.2) = true := by decide +kernel

/-- Scratchpad accesses at the last word of the allocation, past it, and misaligned: lane 0 is the lowest that fails. -/
theorem witness_ScratchpadLoadsAndStores :
    ∀ p ∈ [(4092, true), (4096, false), (2, false)],
      (∀ i ∈ [Instr.ld (hd false (.v 4) (.v 0) .none .none 0) ⟨.n32, 0, .rlx, .beam⟩, .ld (hd false (.v 4) (.v 0) .none .none 0) ⟨.n32, 0, .acq, .team⟩,
          .st (hd false (.v 4) (.v 0) .none .none 0) ⟨.n32, 0, .rlx, .beam⟩,
          .lds (hd true (.c 4) (.c 2) .none .none 0) ⟨.n32, 0, .rlx, .beam⟩, .sts (hd true (.c 4) (.c 2) .none .none 0) ⟨.n32, 0, .rlx, .beam⟩],
        meets (setC (setV probe 0 (BitVec.ofNat 32 p.1)) 2 (BitVec.ofNat 32 p.1)) i (fun x =>
          x.lanes.head? == some 0 && !probe.memHold x false false && !probe.memHold x true false &&
            (decide (x.spadAt 0 % 4 = 0 ∧ x.spadAt 0 + 4 ≤ x.f.t.decl.spad)) == p.2) = true) := by decide +kernel

/-- Stores of 4 and of 8 bytes at a marked word, every lane to it, from registers with a mark and without. -/
theorem witness_StoresMark :
    ∀ n ∈ [(0 : BitVec 2), 1], ∀ pz ∈ [false, true],
      let s := onBeam (onTeam (setV probe 0 16) (fun t => { t with spadPz := [2] })) (fun b => { b with v := putAll b.v ((List.range 32).map (fun l =>
        (l + 32 * 5, { val := 1, pz := pz }))) })
      let m : ModM := ⟨.n32, n, .rlx, .beam⟩
      meets s (.st (hd false (.v (if n = 0 then 5 else 4)) (.v 0) .none .none 0) m) (fun x => x.lanes.length == 32 && !s.memHold x true false &&
        decide (m.bytes < 8) == (n == 0) && x.lanes.all (fun l => decide (x.spadAt l % m.bytes = 0 ∧ x.spadAt l + m.bytes ≤ x.f.t.decl.spad)) &&
        x.spadAt 31 == 8 * 2 && x.f.t.spadPz.contains 2 && (x.f.b.reg x.h.d 31 n.toNat).pz == pz) = true := by decide +kernel

/-- Atomics on a clean word, on a poisoned one and past the allocation; the operands of atomNew. -/
theorem witness_ScratchpadAtomics :
    (∀ p ∈ [(16, true, true), (8, true, false), (4096, false, true)],
      ∀ i ∈ [Instr.atoms (hd false (.v 2) (.v 0) (.v 1) .none 0) ⟨.i32, .add, .team, .rlx⟩,
          .reds (hd false .none (.v 0) (.v 1) .none 0) ⟨.f32, .fmin, .team, .rlx⟩],
        meets (setV (onTeam probe (fun t => { t with spadPz := [1] })) 0 (BitVec.ofNat 32 p.1)) i (fun x =>
          !x.lanes.isEmpty && !probe.memHold x true false &&
            decide (x.spadAt 0 % 4 = 0 ∧ x.spadAt 0 + 4 ≤ x.f.t.decl.spad) == p.2.1 && !x.f.t.spadPz.contains (x.spadAt 0 / 8) == p.2.2)
          = true) ∧
    Ty.f64 ∈ [Ty.i32, .n32, .i64, .n64, .f32, .f64] ∧ 2 ^ 64 - 1 < 2 ^ Ty.f64.width ∧ Ty.f64.isFloat = true ∧
      AtomOp.fmax ∉ [AtomOp.min, .max, .and, .or, .xor] ∧ AtomOp.xor ∉ [AtomOp.fmin, .fmax] := by decide +kernel

/-- A leaf entry that maps 1 GiB at 2^30 with every right. -/
def leafAll : BitVec 64 := BitVec.ofNat 64 (2 ^ 30 + 0x3F)

/-- The probe state with virtual addresses below 2^30 mapped to segment 1 through the core's translation cache. -/
def mapped : State := onCore probe (fun c => { c with tlb := [⟨0, 0, 30, leafAll⟩] })

/-- The probe state with a page table in segment 1 whose second level maps addresses below 2^30. -/
def tabled : State :=
  let s := onVd probe (fun d => { d with ptroot := 2 ^ 30 })
  { s with mem := Memory.writeN (Memory.writeN [] (2 ^ 30) (leBytes 8 (2 ^ 30 + 2 ^ 16 + 1))) (2 ^ 30 + 2 ^ 16) (leBytes 8 leafAll.toNat) }

/-- A walk that ends at a leaf; addresses at 2^56; a root that is absent; leaves that allow, that refuse, and of a peer. -/
theorem witness_TranslationStaysInItsPlaces :
    tabled.walk 0 0x1234 = some (30, leafAll.toNat) ∧ (probe.vds.look 0).map (·.ptroot) = some 0 ∧
    mapped.place 0 ⟨0, 0, 30, leafAll⟩ 0x40 8 { r := true, w := true } = .here (2 ^ 30 + 0x40) ∧
    mapped.place 0 ⟨0, 0, 30, BitVec.ofNat 64 (2 ^ 30 + 0x37)⟩ 0x40 8 { w := true } = .fail 2 ∧
    (onVd probe (fun d => { d with peers := [(3, BitVec.ofNat 128 (1 + 2 ^ 32))] })).place 0
      ⟨0, 0, 30, BitVec.ofNat 64 (3 * 2 ^ 59 + 0x3F)⟩ 0x40 8 { r := true } = .peer 3 := by decide +kernel

/-- The tables of that state: the entry of level 0 is a pointer to a table in the segments, that of level 1 a leaf, whose page is
in them, or for the next GiB without V. -/
theorem witness_WalksThroughTables :
    (let e (a : Nat) : Nat := leNat (Memory.readN tabled.mem a 8)
     let good (a : Nat) : Bool := (e a).testBit 0 && !tabled.linePoisoned a 8 && slice (e a) 48 11 == 0 && slice (e a) 6 2 == 0
     (tabled.vds.look 0).map (·.ptroot) = some (2 ^ 30) ∧ good (2 ^ 30) = true ∧ (e (2 ^ 30)).testBit 1 = false ∧ slice (e (2 ^ 30)) 59 5 = 0 ∧
      slice (e (2 ^ 30)) 2 4 = 0 ∧ 256 * slice (e (2 ^ 30)) 8 40 = 2 ^ 30 + 2 ^ 16 ∧ (2 ^ 30 + 2 ^ 16) % 2 ^ 16 = 0 ∧
      good (2 ^ 30 + 2 ^ 16) = true ∧ (e (2 ^ 30 + 2 ^ 16)).testBit 1 = true ∧ slice (e (2 ^ 30 + 2 ^ 16)) 59 5 = 0 ∧
      256 * slice (e (2 ^ 30 + 2 ^ 16)) 8 40 = 2 ^ 30 ∧ good (2 ^ 30 + 2 ^ 16 + 8) = false) ∧
    (tabled.vds.look 0).map (·.segments) = some [1] ∧ (∀ b, 2 ^ 30 + 2 ^ 16 ≤ b → b < 2 ^ 30 + 2 ^ 16 + 2 ^ 16 → b / 2 ^ 30 ∈ [1]) ∧
    (∀ b, 2 ^ 30 ≤ b → b < 2 ^ 30 + 2 ^ 30 → b / 2 ^ 30 ∈ [1]) := by
  refine ⟨by decide +kernel, by decide +kernel, fun b h1 h2 => ?_, fun b h1 h2 => ?_⟩ <;> simp only [List.mem_singleton] <;> omega

/-- The probe's virtual addresses below 2^30 mapped, without a right, or with every line from 2^30 poisoned at the first. -/
def guarded (leaf : Nat) : State :=
  { onCore probe (fun c => { c with tlb := [⟨0, 0, 30, BitVec.ofNat 64 leaf⟩] }) with linePz := [2 ^ 24] }

/-- The forms of the four global accesses. -/
def globals : List Instr :=
  [.lda (hd false (.v 4) (.v 2) .none .none 0) ⟨.i32, false, .rlx, .dev⟩, .str (hd false (.v 4) (.v 2) .none .none 0) ⟨.i32, false, .rlx, .dev⟩,
   .atom (hd false (.v 4) (.v 2) (.v 6) .none 0) ⟨.n32, .add, .dev, .rlx⟩, .redGlobal (hd false .none (.v 2) (.v 6) .none 0) ⟨.n32, .add, .dev, .rlx⟩]

/-- The four global accesses: at mapped addresses they complete, with the lanes in order; at misaligned addresses, addresses beyond 2^56
and addresses without a right they trap; at addresses with no translation at hand they wait for a walk. -/
theorem witness_GlobalAccessesIssue :
    ∀ i ∈ globals, ∀ p ∈ [(0x40, 0, 2 ^ 30 + 0x3F, 0), (0x41, 0, 2 ^ 30 + 0x3F, 9), (0, 2 ^ 24, 2 ^ 30 + 0x3F, 7), (0x40, 0, 2 ^ 30 + 0x03, 8),
        (2 ^ 31, 0, 2 ^ 30 + 0x3F, 1)],
      let s := setV (setV (guarded p.2.2.1) 2 (BitVec.ofNat 32 p.1)) 3 (BitVec.ofNat 32 p.2.1)
      meets s i (fun x =>
        let atomic : Bool := match i with | .atom _ _ | .redGlobal _ _ => true | _ => false
        let write : Bool := match i with | .lda _ _ => false | _ => true
        !x.lanes.isEmpty && !s.acquiring x x.threads && !s.readsBefore x x.threads &&
          (match (s.gLanes x 4 { r := !write, w := write, a := atomic } atomic (x.lanes.map (wantAtomic .n32 x))).1 with
            | .ok l => p.2.2.2 == 0 && l.length == 32
            | .trap e => e.cause == p.2.2.2 && e.lane == 0 && decide (1 < p.2.2.2)
            | .walk => p.2.2.2 == 1)) = true := by decide +kernel

/-- Atomics at a poisoned line; a write behind a copy out whose sources are due; an access behind an acquire. -/
theorem witness_GlobalAccessesHeld :
    (∀ i ∈ globals.drop 2, let s := guarded (2 ^ 30 + 0x3F)
      meets s i (fun x => match (s.gLanes x 4 { w := true, a := true } true (x.lanes.map (wantAtomic .n32 x))).1 with
        | .trap e => e.cause == 0x0A
        | _ => false) = true) ∧
    (∀ i ∈ globals, meets probe i (fun x => !x.lanes.isEmpty && x.lanes.length == 32) = true) ∧
    (∀ i ∈ globals, ∀ a ∈ [false, true],
      let s : State := { mapped with
        gops := if a then [{ id := 5, beam := ⟨0, 0, 0⟩, vd := 0, launch := 0, kind := .load, size := 4
                             lanes := [{ lane := 0, va := 0x40, pa := 2 ^ 30 + 0x40, dev := 0, val := 7, cmp := 0, pz := false }], ord := .acq
                             scope := .dev, after := [], done := false, acked := true, got := [], dest := some 6 }] else []
        fills := [{ id := 6, beam := ⟨0, 0, 0⟩, names := {}, out := {}, prism := none, gop := some 5, reads := [0] }]
        copies := [{ id := 9, beam := ⟨0, 0, 0⟩, resp := none, teamGen := 0, vd := 0, launch := 0, kind := .lanes, out := false
                     rows := [{ key := 0, va := 0x40, off := 0, len := 4, data := [], pz := [], st := .walking 0x40 [] none }]
                     counter := none, word := none, early := none, names := {}, after := [] }] }
      meets s i (fun x => s.acquiring x x.threads == a && s.readsBefore x x.threads) = true) := by decide +kernel

/-- Atomics with a poisoned value operand: at bytes of the segments, which would leave nothing, of another device and of a shared
range. -/
theorem witness_GlobalAccessesPoisoned :
    ∀ i ∈ globals.drop 2, ∀ p ∈ [(2 ^ 30 + 0x3F, false), (3 * 2 ^ 59 + 0x3F, true), (2 ^ 47 + 0x3F, true)],
      let s := onVd (guarded p.1) (fun d => { d with peers := [(3, BitVec.ofNat 128 (1 + 2 ^ 32))] })
      let s : State := { onBeam s (fun b => { b with v := putAll b.v ((List.range 32).map (fun l => (l + 32 * 6, { val := 1, pz := true }))) }) with
        mgmt := { s.mgmt with shared := [(0, { base := 2 ^ 47, gib := 1, keyset := 0, grants := [(0, true)] })] } }
      meets s i (fun x => !x.lanes.isEmpty && x.lanes.all (fun k => x.f.b.poisoned x.e.b x.h.b k && (wantAtomic .n32 x k).va % 4 == 0 &&
        (cached (s.core x.f.core).tlb x.f.t.vd (wantAtomic .n32 x k).va).any (fun tr =>
          s.leaks x.f.t.vd (s.place x.f.t.vd tr (wantAtomic .n32 x k).va 4 { w := true, a := true }) 4 == p.2))) = true := by decide +kernel

/-- An access in flight of the probe beam: a store, or a load that fills v4. -/
def flying (load : Bool) : State :=
  { mapped with
    gops := [{ id := 5, beam := ⟨0, 0, 0⟩, vd := 0, launch := 0, kind := if load then .load else .store, size := 4
               lanes := [{ lane := 0, va := 0x40, pa := 2 ^ 30 + 0x40, dev := 0, val := 7, cmp := 0, pz := false }], ord := .rlx, scope := .dev
               after := [], done := false, acked := true, got := [], dest := if load then some 6 else none }]
    fills := if load then [{ id := 6, beam := ⟨0, 0, 0⟩, names := { v := [4] }, out := {}, prism := none, gop := some 5, reads := [0] }] else [] }

theorem witness_GlobalAccessesPerformed :
    (∀ load ∈ [false, true], ((flying load).gops.find? (fun o => o.id == 5)).any (fun g => !g.done && g.acked && (flying load).gReady g &&
      g.got.isEmpty && g.here.all (fun a => !(flying load).shut a.pa) && (g.kind == .load) == load) = true) ∧
    (∀ kept ∈ [false, true], let s := onCore (flying true) (fun c => { c with
        older := if kept then [⟨0, 0, 2 ^ 27 + 8, List.replicate 8 9, false, false⟩] else [] })
      (s.fills.find? (fun o => o.id == 6)).any (fun f => f.prism.isNone && f.gop == some 5 && (s.ref? f.beam).isSome &&
        !s.moves.any (fun m => m.fill == 6)) = true ∧
      (s.gops.find? (fun o => o.id == 5)).any (fun g => g.lanes.all (fun a => ((s.core 0).older.find? (fun e =>
        !e.spad && e.slot == g.beam.slot && e.thread == a.lane && e.gran == a.pa / 8)).isSome == kept)) = true) ∧
    (let s : State := { flying false with gops := (flying false).gops.map (fun g => { g with
        acked := false, lanes := g.lanes.map (fun a => { a with dev := 3 }) }) }
     (s.gops.find? (fun o => o.id == 5)).any (fun g => !g.acked && s.gReady g && g.lanes.all (fun a =>
       decide (s.link g.vd a.dev ≠ .calibrating)) && !g.done) = true) ∧
    (let s : State := { flying false with gops := (flying false).gops.flatMap (fun g => [g, { g with id := 8, after := [5] }]) }
     (s.gops.find? (fun o => o.id == 8)).any (fun g => !s.gReady g) = true) := by decide +kernel

/-- An `atom` of the probe beam in flight, in some stage, and a load of two threads of which the first has older bytes. -/
def atomFlying (done acked : Bool) : State :=
  { flying true with gops := (flying true).gops.map (fun g => { g with
      kind := .rmw .add .n32 true, done := done, acked := acked, got := if done then [(0, 41, false)] else [] }) }

theorem witness_AtomsPerformed :
    (∀ acked ∈ [true, false], ((atomFlying false acked).gops.find? (fun o => o.id == 5)).any (fun g => !g.done && g.kind != .load && g.dest.isSome &&
      (atomFlying false acked).gReady g && g.here.all (fun a => !(atomFlying false acked).shut a.pa)) = true) ∧
    (∀ p ∈ [(false, true), (true, false), (true, true)], let s := atomFlying p.1 p.2
      (s.fills.find? (fun o => o.id == 6)).any (fun f => f.prism.isNone && f.gop == some 5 && (s.ref? f.beam).isSome &&
        !s.moves.any (fun m => m.fill == 6)) = true ∧
      (s.gops.find? (fun o => o.id == 5)).any (fun g => g.kind == .rmw .add .n32 true && g.done == p.1 && g.acked == p.2) = true) ∧
    (let s := onCore { flying true with gops := (flying true).gops.map (fun g => { g with
        lanes := g.lanes ++ g.lanes.map (fun a => { a with lane := 1, va := a.va + 8, pa := a.pa + 8 }) }) }
        (fun c => { c with older := [⟨0, 0, 2 ^ 27 + 8, List.replicate 8 9, false, false⟩] })
     (s.gops.find? (fun o => o.id == 5)).any (fun g => g.kind == .load && g.acked && s.gReady g && g.got.isEmpty &&
       (g.lanes.map (·.lane)).Nodup && g.lanes.map (fun a => ((s.core 0).older.find? (fun e =>
         !e.spad && e.slot == g.beam.slot && e.thread == a.lane && e.gran == a.pa / 8)).isSome) == [true, false]) = true) := by decide +kernel

/-- Copies whose offset is the last of the allocation, past it, and misaligned; a bulk descriptor that is well-formed and one that is
not; an arrival word that its page allows, one without a translation, one that is misaligned and one of 2^56; svst. -/
theorem witness_CopiesIssue :
    (∀ p ∈ [(4080, true), (4096, false), (8, false)],
      ∀ i ∈ [Instr.copy (hd false (.v 8) (.v 2) (.v 0) .none 0) ⟨2, true⟩, .ncopy (hd false (.v 8) (.v 2) (.v 0) .none 0) ⟨2, false⟩],
        meets (setV mapped 0 (BitVec.ofNat 32 p.1)) i (fun x => !x.lanes.isEmpty && !mapped.copyHold x &&
          decide (x.val x.h.b .n32 0 % 16 = 0 ∧ x.val x.h.b .n32 0 + 16 ≤ x.f.t.decl.spad) == p.2) = true) ∧
    (∀ p ∈ [(16, false, true), (3, true, true), (8192, false, false)],
      meets (setC mapped 11 (BitVec.ofNat 32 (p.1 * 64))) (.bcopy (hd true (.c 4) (.c 8) .none .none 0) ⟨1, true⟩) (fun x =>
        let k := bulkOf x.bulkWord 1
        k.bad == p.2.1 && (k.rows.all (fun r => decide (r.2.2 % 4 = 0 ∧ r.2.2 + k.len ≤ x.f.t.decl.spad))) == p.2.2) = true) ∧
    (∀ p ∈ [(0x40, 0, 0), (2 ^ 31, 0, 1), (0x41, 0, 2), (0, 2 ^ 24, 3)],
      let s := setC (setC (setC mapped 2 (BitVec.ofNat 32 p.1)) 3 (BitVec.ofNat 32 p.2.1)) 11 0x400
      meets s (.bcopy (hd true (.c 4) (.c 8) .none (.c 2) 0) ⟨1, true⟩) (fun x =>
        let word := x.val x.h.c .n64 0
        let near := cached (s.core 0).tlb 0 word
        !(bulkOf x.bulkWord 1).bad && !s.copyHold x && (decide (word % 4 ≠ 0)) == decide (p.2.2 = 2) && (decide (2 ^ 56 ≤ word)) == decide (p.2.2 = 3) &&
          (p.2.2 != 0 || near.any (fun t => match s.place 0 t word 4 { w := true, a := true } with
            | .here pa => pa == 2 ^ 30 + 0x40
            | _ => false)) &&
          (p.2.2 != 1 || near.isNone && (cached (s.dtu.getD 0 []) 0 word).isNone && x.f.b.missed.isEmpty)) = true) ∧
    meets mapped (.svst (hd false .none (.v 0) (.v 2) .none 0)) (fun x => !mapped.acquiring x x.threads) = true := by decide +kernel

/-- A bulk copy of two rows of which the second is out of the allocation. -/
theorem witness_RowsFail :
    meets (setC (setC (setC mapped 11 (BitVec.ofNat 32 (16 * 64))) 12 2) 15 4096) (.bcopy (hd true (.c 4) (.c 8) .none .none 0) ⟨2, true⟩) (fun x =>
      let k := bulkOf x.bulkWord 2
      !x.lanes.isEmpty && !mapped.copyHold x && !k.bad && k.n1 == 2 && k.n2 == 1 && k.rows.map (fun r => decide (r.2.2 % 4 = 0 ∧
        r.2.2 + k.len ≤ x.f.t.decl.spad)) == [true, false]) = true := by decide +kernel

/-- Source words of `ncopy`: within the allocation of the team at position 0, past it, misaligned, and at a position without a team. -/
theorem witness_NearCopiesIssue :
    ∀ p ∈ [(16, 0), (4096, 1), (8, 2), (2 ^ 28 + 16, 3)],
      let s := setV mapped 2 (BitVec.ofNat 32 p.1)
      meets s (.ncopy (hd false (.v 8) (.v 2) (.v 0) .none 0) ⟨2, false⟩) (fun x => !x.lanes.isEmpty && !s.copyHold x && x.lanes.all (fun l =>
        let w := x.val x.h.a .n32 l % 2 ^ 32
        let off := w % 2 ^ 19
        w == p.1 && decide (off % 16 ≠ 0) == decide (p.2 = 2) && s.clusterCores x.f.core x.f.b.resp == [0] && decide (w / 2 ^ 28 ≠ 0) == decide (p.2 = 3) &&
          ((s.core 0).teamIn x.f.b.resp).any (fun tm => decide (tm.decl.spad < off + 16) == decide (p.2 = 1)))) = true := by decide +kernel

/-- A finished copy in of the probe beam: one row, ready, failed, or of a bulk copy; and a walk in flight. -/
def copied (kind : CopyKind) (st : RowSt) : State :=
  { mapped with
    copies := [{ id := 5, beam := ⟨0, 0, 0⟩, resp := none, teamGen := 0, vd := 0, launch := 0, kind := kind, out := false
                 rows := [{ key := 0, va := 0x40, off := 0, len := 4, data := [], pz := [], st := st }], counter := none, word := none, early := none
                 names := { v := [4, 5] }, after := [] }]
    walks := [{ id := 9, vd := 0, die := 0, va := 4 * 2 ^ 16, page := 4, log := 16 }] }

/-- An overlay load of core 0 that waits for the walk of an address. -/
def waiting (va : Nat) : OvlLoad :=
  { id := 3, core := 0, slot := 1, vd := 0, ovl := 0, beam := none, names := {}, fetch := false, wait := some va }

/-- The copy as it stands may finish: no row waits for a translation, nothing comes before it, no port holds it. -/
def mayFinish (s : State) (c : Copy) : Bool :=
  c.rows.all (fun r => match r.st with | .walking _ _ _ => false | _ => true) && c.after.all (fun k => !s.pending k) && !s.copiesBefore c &&
    !s.portsHold c

/-- Copies in that name counter 3, of the resident team, of one that has gone, and of a responder, with a beam that waits for the sum. -/
theorem witness_CopiesArrive :
    ∀ p ∈ [((none : Option Nat), (0 : BitVec 16)), (none, 1), (some 2, 0)],
      let s := copied .lanes (.ready [⟨0, 2 ^ 30 + 0x40, [1, 2, 3, 4], false⟩])
      let s : State := { onBeam s (fun b => { b with sleep := .wait 3 1 }) with
        copies := s.copies.map (fun c => { c with counter := some 3, resp := p.1, teamGen := p.2 }) }
      (s.copies.find? (fun o => o.id == 5)).any (fun c => !c.out && c.counter == some 3 && mayFinish s c && (c.written (s.refusals c [])).length == 1 &&
        waitMet ((s.core 0).counters.getD 3 0 + 1) 1 && (s.beam? 0 0).any (fun b => b.sleep == .wait 3 1) &&
        (c.resp.isNone && (s.core c.beam.core).team.any (fun tm => tm.gen == c.teamGen && tm.vd == c.vd)) == decide (p = (none, 0))) = true := by
  decide +kernel

theorem witness_CopiesFinish :
    (∀ kind ∈ [CopyKind.lanes, .near, .bulk], ∀ st ∈ [RowSt.ready [⟨0, 2 ^ 30 + 0x40, [1, 2, 3, 4], false⟩], .failed 2 0x40],
      ((copied kind st).copies.find? (fun o => o.id == 5)).any (fun c => c.kind == kind && c.early.isNone && mayFinish (copied kind st) c &&
        ((copied kind st).ref? c.beam).isSome && ((onCore (copied kind st) (fun c => { c with beams := [] })).ref? c.beam).isNone &&
        ((copied kind st).core 0).team.any (fun t => t.gen == c.teamGen)) = true) ∧
    (∀ word ∈ [none, some (0, 2 ^ 30 + 0x80, 0x80)],
      let s : State := { copied .lanes (.ready [⟨0, 2 ^ 30 + 0x40, [1, 2, 3, 4], false⟩]) with
        copies := (copied .lanes (.ready [⟨0, 2 ^ 30 + 0x40, [1, 2, 3, 4], false⟩])).copies.map (fun c => { c with out := true, word := word }) }
      (s.copies.find? (fun o => o.id == 5)).any (fun c => c.out && mayFinish s c && !s.shut (2 ^ 30 + 0x80) && s.refusals c [] == [] &&
        !(c.written []).isEmpty) = true) ∧
    ((copied .lanes (.walking 0x40 [] none)).copies.find? (fun o => o.id == 5)).any (fun c => !mayFinish (copied .lanes (.failed 2 0)) c) = true ∧
    (let s : State := { copied .lanes (.walking (4 * 2 ^ 16) [] none) with
       walks := (copied .lanes (.failed 2 0)).walks.map (fun w => { w with beams := [(⟨0, 0, 0⟩, 4 * 2 ^ 16)] })
       ovls := [waiting (4 * 2 ^ 16)] }
     (s.walks.find? (fun o => o.id == 9)).any (fun w => s.walkRuns w && (s.walk w.vd w.va).isNone && s.copies.all (fun c =>
       c.vd == w.vd && dieOf c.beam.core == w.die) && (s.ref? ⟨0, 0, 0⟩).isSome && s.ovls.all (fun l => l.wait.any (fun va =>
         va / 2 ^ w.log == w.page))) = true) ∧
    (let s : State := { tabled with
       walks := [{ id := 9, vd := 0, die := 0, va := 0x1234, page := 0, log := 30 }]
       ovls := [waiting 0x1000] }
     (s.walks.find? (fun o => o.id == 9)).any (fun w => s.walkRuns w && s.ovls.all (fun l => l.wait.any (fun va => va / 2 ^ w.log == w.page)) && s.walk w.vd w.va == some (w.log, leafAll.toNat) &&
       w.page == w.va / 2 ^ w.log) = true) ∧
    (let s : State := { tabled with walks := (List.range 513).map (fun i => { id := i, vd := 0, die := 0, va := 2 ^ 16 * i, page := i, log := 16 }) }
     (s.walks.find? (fun o => o.id == 512)).any (fun w => !s.walkRuns w) = true) := by decide +kernel

/-! ### Witnesses: synchronisation, control, directories, system -/

/-- A fence, a wait, an arrival and a sleep that no thread executes. -/
theorem witness_NoThread :
    ∀ i ∈ [Instr.fence { hd true .none .none .none .none 0 with gneg := true } ⟨.ar, .dev⟩, .wait { hd true .none .imm (.c 2) .none 1 with gneg := true },
        .arrive { hd true .none (.c 1) .imm .none 5 with gneg := true }, .sleep { hd true .none .imm .none .none 9 with gneg := true },
        .bar { hd true .none .imm .none .none 15 with gneg := true }, .cbar { hd true .none .imm .none .none 3 with gneg := true },
        .trigger { hd true .none .none .none .none 0 with gneg := true }, .joinat { hd true .none .imm .none .none 4 with gneg := true }],
      meets probe i (fun x => x.lanes.isEmpty) = true := by decide +kernel

/-- A load of the probe beam in flight holds an acquire fence, a store in flight a full one; a wait for 1 of
counter 1 sleeps at 0 and goes on at 1; an arrival reaches its counter; sleeps of 0 and 100 cycles; a sleeping beam. -/
theorem witness_FencesWait :
    (∀ s ∈ [probe, flying true, flying false], ∀ o ∈ [Ordr.rlx, .acq, .rel, .ar], ∀ sc ∈ [Scope.team, .dev],
      meets s (.fence (hd true .none .none .none .none 0) ⟨o, sc⟩) (fun x => !x.lanes.isEmpty &&
        ((s.gops.any (fun g => g.beam == x.ref && !g.settled)) == !s.gops.isEmpty) &&
        (s.fills.all (fun f => f.beam == x.ref && f.reads.contains 0))) = true) := by decide +kernel

/-- The state with a copy of lane 0 that still reads, of a beam of core 0. -/
def stillCopying (s : State) (beam : Nat) : State :=
  { s with
    copies := [{ id := 9, beam := ⟨0, beam, 0⟩, resp := none, teamGen := 0, vd := 0, launch := 0, kind := .lanes, out := false
                 rows := [{ key := 0, va := 0x40, off := 0, len := 4, data := [], pz := [], st := .walking 0x40 [] none }]
                 counter := none, word := none, early := none, names := {}, after := [] }] }

/-- A full fence with a copy before it whose source is still to be read, and nothing else before it. -/
theorem witness_FencesWaitForSources :
    meets (stillCopying probe 0) (.fence (hd true .none .none .none .none 0) ⟨.ar, .dev⟩) (fun x => !x.lanes.isEmpty &&
      (stillCopying probe 0).readsBefore x x.pathThreads && (stillCopying probe 0).gops.isEmpty && (stillCopying probe 0).fills.isEmpty) = true := by
  decide +kernel

theorem witness_WaitsAndArrives :
    (∀ n ∈ [0, 1, 2 ^ 31],
      meets (setC (onCore probe (fun c => { c with counters := [(1, BitVec.ofNat 32 n)] })) 2 1) (.wait (hd true .none .imm (.c 2) .none 1)) (fun x => !x.lanes.isEmpty &&
        decide ((BitVec.ofNat 32 n - BitVec.ofNat 32 (x.val x.h.b .n32 0)).toNat < 2 ^ 31) == decide (n ≠ 0)) = true) ∧
    (∀ b ∈ [Opnd.none, .imm], meets probe (.arrive (hd true .none (.c 1) b .none (if b = .imm then 5 else 0))) (fun x => !x.lanes.isEmpty &&
      !probe.acquiring x x.pathThreads && !probe.readsBefore x x.pathThreads &&
      (probe.core (if b = .none then x.f.core else x.f.core / 16 * 16 + x.val x.h.b .n32 0 % 16)).team.isSome == decide (b = .none)) = true) := by decide +kernel

/-- An arrival of a tag in flight to counter 1 of core 0. -/
def arriving (s : State) (tag : BitVec 16) (after : List Nat) : State :=
  { s with arrivals := [{ id := 4, vd := 0, core := 0, counter := 1, amount := 3, tag := tag, launch := 0, team := 0, after := after }] }

/-- The probe's team saved. -/
def saved : State :=
  onLaunch (onCore probe (fun c => { c with team := none, beams := [] })) (fun l => { l with
    teams := [(0, .saved { team := { vd := 0, launch := 0 }, counters := [], beams := [] })] })

theorem witness_ArrivalsReach :
    (∀ p ∈ [([], false), ([5], true)], let s := arriving (onBeam (flying false) (fun b => { b with sleep := .wait 1 3 })) 0 p.1
     (s.arrivals.find? (fun o => o.id == 4)).any (fun a => a.after.any s.pending == p.2 && (s.core 0).team.any (fun t => t.gen == a.tag && t.vd == a.vd))
        = true) ∧
    (∀ tag ∈ [0, 1], ((arriving saved (BitVec.ofNat 16 tag) []).launch? 0 0).any (fun l => match l.teams.look 0 with
      | some (.saved v) => (v.team.gen == BitVec.ofNat 16 tag) == (tag == 0)
      | _ => false) = true) := by decide +kernel

theorem witness_Sleeps :
    (∀ n ∈ [0, 100], meets probe (.sleep (hd true .none .imm .none .none (BitVec.ofNat 20 n))) (fun x => !x.lanes.isEmpty &&
      x.val x.h.a .n32 0 % 2 ^ 32 == n) = true) ∧
    ((onBeam probe (fun b => { b with sleep := .sleeping })).beam? 0 0).any (fun b => b.sleep == .sleeping) = true := by decide +kernel

/-- The state with a load of the image of overlay 0 by an `ovl` of a beam. -/
def stillReading (s : State) (slot : Nat) : State :=
  { s with ovls := [{ id := 3, core := 0, slot := 1, vd := 0, ovl := 0, beam := some ⟨0, slot, 0⟩, names := { c := [4] }, fetch := false, launch := some 0
                      img := some { cont := 0, image := 0x20, count := 8, digest := 0 } }] }

/-- A team of one beam completes a barrier, one of two does not; a trigger before and after the first, of an ordinary beam and of a
responder's; behind a copy and an image that are still read, of the beam and of one that has ended. -/
theorem witness_BarriersAndTriggers :
    (∀ n ∈ [1, 2], ∀ i ∈ [Instr.bar (hd true .none .imm .none .none 15), .cbar (hd true .none .imm .none .none 3)],
      let s := onTeam probe (fun t => { t with beams := n })
      meets s i (fun x => !x.lanes.isEmpty && !s.releaseHold x && !x.f.b.triggered && x.f.t.ended.isEmpty && !s.clusterLeftovers 0 none &&
        s.clusterCores 0 none == [0] && s.cores.length == 1 &&
        (List.range x.f.t.beams).all (fun i => x.f.t.ended.contains i || i == x.f.b.idx) == decide (n = 1)) = true) ∧
    (∀ v ∈ [stillCopying, stillReading], let s : State := v (onTeam probe (fun t => { t with beams := 2, ended := [1] })) 5
     meets s (.bar (hd true .none .imm .none .none 15)) (fun x => !x.lanes.isEmpty && !s.releaseHold x && x.f.t.ended == [1] &&
       s.copies.all (fun c => (s.ref? c.beam).isNone && c.beam.core == x.f.core) &&
       s.ovls.all (fun l => l.beam.all (fun r => (s.ref? r).isNone) && l.core == x.f.core && l.launch == some x.f.t.launch) &&
       (s.copies.length + s.ovls.length == 1)) = true) ∧
    (∀ v ∈ [stillCopying, stillReading], ∀ i ∈ [Instr.bar (hd true .none .imm .none .none 15), .cbar (hd true .none .imm .none .none 3)],
      meets (v probe 0) i (fun x => !x.lanes.isEmpty && !x.f.b.triggered && (v probe 0).releaseHold x) = true) ∧
    (∀ b ∈ [false, true], meets (onBeam probe (fun x => { x with triggered := b })) (.trigger (hd true .none .none .none .none 0))
      (fun x => !x.lanes.isEmpty && x.f.b.triggered == b && x.f.b.resp.isNone && !probe.releaseHold x && (probe.launch? x.f.t.vd x.f.t.launch).any (fun l =>
        l.st == .running && !l.trigged && (probe.vds.look x.f.t.vd).any (fun d => !d.binBusy l))) = true) ∧
    (let s := onCore (onBeam probe (fun b => { b with resp := some 5 })) (fun c => { c with resps := [(5, { vd := 0, launch := 0 })] })
     meets s (.trigger (hd true .none .none .none .none 0)) (fun x => !x.lanes.isEmpty && x.f.b.resp == some 5 && !x.f.b.triggered && !s.releaseHold x) = true) ∧
    meets (flying false) (.bar (hd true .none .imm .none .none 0)) (fun x => (flying false).releaseHold x) = true := by decide +kernel

/-- The probe's launch runs node 0 of a graph whose first successor, node 1, has a bin of 16-byte records. -/
def spawning (fill : Nat) : State :=
  let n0 : Node := { packet := BitVec.ofNat 512 (2 ^ 0), succ := BitVec.ofNat 256 (2 ^ 15 + 1), npred := 0, hasBin := false, rsize := 16, spill := 0
                     timer := 0 }
  let n1 : Node := { packet := BitVec.ofNat 512 0, succ := 0, npred := 1, hasBin := true, rsize := 16, spill := fill, timer := 1 }
  onLaunch (onVd probe (fun d => { d with graphs := [(0, { queue := 0, stat := 0, nodes := [(0, n0), (1, n1)] })] }))
    (fun l => { l with node := some (0, 0) })

/-- spawn and spawn.try name a bin, with records in bounds; an offset that is not
16-byte aligned, and one whose record is beyond the allocation; a responder; no bin; a store in flight; a parked spawn. -/
theorem witness_SpawnsWriteRecords :
    (∀ i ∈ [Instr.spawn (hd false .none (.v 0) .imm .none 0), .spawnTry (hd false (.p 0) (.v 0) .imm .none 0)],
      meets (spawning 40) i (fun x => !x.lanes.isEmpty && !(spawning 40).releaseHold x && ((spawning 40).spawnTo x.f.t 0).isSome &&
        x.lanes.all (fun l => decide (x.spadAt l % 16 = 0 ∧ x.spadAt l + 16 ≤ x.f.t.decl.spad))) = true ∧
      meets (setV (spawning 40) 0 8) i (fun x => x.spadAt 0 % 16 == 8 && x.lanes.head? == some 0) = true ∧
      meets (setV (spawning 40) 0 4096) i (fun x => x.lanes.head? == some 0 && x.lanes.all (fun l => decide (x.spadAt l % 16 = 0 ∧
        x.spadAt l ≤ x.f.t.decl.spad ∧ x.f.t.decl.spad < x.spadAt l + 16))) = true ∧
      (let s := onCore (onBeam (spawning 40) (fun b => { b with resp := some 5 })) (fun c => { c with resps := [(5, { vd := 0, launch := 0 })] })
       meets s i (fun x => x.f.b.resp == some 5 && x.lanes.all (fun l => decide (x.spadAt l % 16 = 0 ∧ x.spadAt l ≤ x.f.t.decl.spad))) = true) ∧
      (let s : State := { spawning 40 with gops := (flying false).gops }
       meets s i (fun x => s.releaseHold x && (s.spawnTo x.f.t 0).isSome) = true) ∧
      meets probe i (fun x => (probe.spawnTo x.f.t 0).isNone && x.lanes.all (fun l => x.spadAt l == 0)) = true) ∧
    (let s := onBeam (spawning 0) (fun b => { b with sleep := .spawning 1 [{ lane := 0, bytes := List.replicate 16 1, pz := List.replicate 4 false }] })
     (s.beam? 0 0).any (fun b => match b.sleep with | .spawning m left => m == 1 && left.length == 1 | _ => false) = true ∧
      (s.node? 0 0 1).isSome = true ∧ (s.launch? 0 0).any (fun l => l.node == some (0, 0)) = true) := by decide +kernel

theorem witness_BreakpointTraps :
    ∀ a ∈ [Opnd.imm, .none], meets (withHandler probe) (.brk (hd false .none a .none .none (if a = .imm then 9 else 0))) (fun x =>
      !x.lanes.isEmpty && x.f.b.handler.isNone && ((withHandler probe).vds.look x.f.t.vd).any (fun d => (d.overlays.look 255).isSome)) = true ∧
    meets (withHandler probe) (.brk { hd false .none a .none .none (if a = .imm then 9 else 0) with gneg := true }) (fun x => x.lanes.isEmpty) = true := by
  decide +kernel

/-- Two loads of core 0 of an overlay whose image stands at 0x20, by a leaf in the core's cache or by none; with poisoned lines, pages whose walk
has faulted, and a pool range of the virtual device behind a CXL port that is out. -/
def imaging (b : Option BeamRef) (ovl leaf : Nat) (pz missed : List Nat) : State :=
  let s := onVd (onCore probe (fun c => { c with tlb := if leaf = 0 then [] else [⟨0, 0, 30, BitVec.ofNat 64 leaf⟩] })) (fun d => { d with
    overlays := [(0, { cont := 0, image := 0x20, count := 8, digest := 0 })], descr := d.descr + BitVec.ofNat 1024 (2 ^ 192 * (2 ^ 32 + 2 ^ 33)) })
  { s with
    linePz := pz, mgmt := { s.mgmt with devices := [(2, 2 ^ 47, 1)], ports := [(2, .calibrating)] }
    ovls := [{ id := 3, core := 0, slot := 1, vd := 0, ovl := ovl, beam := b, names := { c := [4] }, fetch := false, missed := missed
               img := if ovl = 0 then some { cont := 0, image := 0x20, count := 8, digest := 0 } else none },
      { id := 4, core := 0, slot := 2, vd := 0, ovl := ovl, beam := b, names := { c := [5] }, fetch := false }] }

/-- joinat within the slot, past its ends, and with no entry left; ovl of a resident, a loading, an unknown and a loadable overlay, and behind a
store; loads of a beam and of the command processor, whose image is read, fails, waits for a walk or for a port. -/
theorem witness_ControlWordsAndOverlays :
    (∀ p ∈ [(0, 0), (5460, 0), (5461, 1), (0xFFFFF, 1)], meets probe (.joinat (hd true .none .imm .none .none (BitVec.ofNat 20 p.1)))
      (fun x => !x.lanes.isEmpty && (decide ((idxOf x.pc : Int) + x.h.imm.toInt < 0 ∨ 5460 < (idxOf x.pc : Int) + x.h.imm.toInt)) == (p.2 == 1)) = true) ∧
    meets (onBeam probe (fun b => { b with flow := { b.flow with room := 0 } })) (.joinat (hd true .none .imm .none .none 0))
      (fun x => x.f.b.flow.room == 0) = true ∧
    (∀ p ∈ [(0, 0, 0), (0, 1, 3), (7, 0, 2), (255, 0, 9)], meets (withHandler probe) (.ovl (hd true (.c 4) .imm (.c 2) .none (BitVec.ofNat 20 p.1)))
      (fun x => !x.lanes.isEmpty && !probe.acquiring x x.pathThreads && !(probe.core 0).slotLoading p.2.1 &&
        ((probe.core 0).slotOf p.1).isSome == decide (p.1 = 0) && ((withHandler probe).vds.look 0).any (fun d => (d.overlays.look p.1).isSome ==
          decide (p.1 = 0 ∨ p.1 = 255))) = true) ∧
    meets (onCore probe (fun c => { c with slots := c.slots.put 1 { loading := some 7 } })) (.ovl (hd true (.c 4) (.c 3) .imm .none 1))
      (fun x => x.val x.h.b .n32 0 == 1) = true ∧
    (let s : State := { flying false with gops := (flying false).gops.map (fun g => { g with lanes := g.lanes.map (fun a => { a with lane := 32 }) }) }
     meets s (.ovl (hd true (.c 4) .imm (.c 2) .none 7)) (fun x => !x.lanes.isEmpty && s.gops.any (fun g => g.beam == x.ref && !g.settled &&
       g.lanes.any (·.lane == 32))) = true) ∧
    (let s : State := { stillCopying probe 0 with copies := (stillCopying probe 0).copies.map (fun c => { c with kind := .bulk }) }
     meets s (.ovl (hd true (.c 4) .imm (.c 2) .none 7)) (fun x => !x.lanes.isEmpty && s.copiesDue x x.threads == [9]) = true) ∧
    (∀ b ∈ [none, some (⟨0, 0, 0⟩ : BeamRef), some ⟨0, 0, 1⟩],
      ∀ v ∈ [(0, 2 ^ 30 + 0x3F, ([] : List Nat), ([] : List Nat), 0), (0, 2 ^ 30 + 0x03, [], [], 1), (0, 2 ^ 30 + 0x3F, [2 ^ 24], [], 4), (7, 0, [], [], 2),
        (0, 0, [], [], 10), (0, 0, [], [0], 1), (0, 2 ^ 47 + 0x3F, [], [], 11)],
      let s := imaging b v.1 v.2.1 v.2.2.1 v.2.2.2.1
      ((s.ovls.find? (fun o => o.id == 3)).any (fun l => !l.fetch && l.wait.isNone && l.beam.all (fun r => (s.ref? r).isSome == (r.gen == 0)) &&
          (match l.img with
            | none => v.2.2.2.2 == 2
            | some o => (lineParts o.image (12 * o.count)).length == 2 && (match (s.readImage l o.image (12 * o.count)).1 with
              | .bytes bs => v.2.2.2.2 == 0 && bs.length == 96
              | .fail e => e == v.2.2.2.2
              | .walk va => v.2.2.2.2 == 10 && va == 0x20
              | .held => v.2.2.2.2 == 11))) &&
        (s.ovls.find? (fun o => o.core == 0)).any (·.id == 3) && (s.core 0).team.isSome) = true) ∧
    (waiting 0x1000).wait.isSome = true ∧
    (let s := onTeam (onVd probe (fun d => { d with kernels := [(0, { cont := 0, decl := {}, entry := 0x07000000 })] })) (fun t => { t with entry := true })
     (s.core 0).team.any (·.entry) = true ∧ (s.launch? 0 0).any (fun l => l.handle == 0) = true ∧ (s.core 0).slotOf 7 = none ∧
        (s.core 0).loadingIn 7 = none ∧ (s.core 0).slotLoading 0 = false) := by decide +kernel

/-- A team whose entry overlay slot 0 loads, whose slot 0 loads another, and for which slot 2 loads it. -/
theorem witness_EntryOverlays :
    ∀ v ∈ [(0, 7), (0, 9), (2, 7)],
      let s := onTeam (onVd probe (fun d => { d with kernels := [(0, { cont := 0, decl := {}, entry := 0x07000000 })] })) (fun t => { t with entry := true })
      let s := onCore s (fun c => { c with slots := c.slots.put v.1 { loading := some v.2 } })
      ((s.core 0).team.any (·.entry) && (s.launch? 0 0).any (fun l => l.handle == 0) && ((s.core 0).slotOf 7).isNone &&
        ((s.core 0).loadingIn 7).isSome == decide (v.2 = 7) && (s.core 0).slotLoading 0 == decide (v.1 = 0)) = true := by decide +kernel

/-- The probe core's directory with a valid entry 0 and a moving entry 1. -/
def filed : State :=
  onCore probe (fun c => { c with dir := [(0, { state := 1, key := 5 }), (1, { state := 2 })] })

theorem witness_DirectoryDeletes :
    ∀ n ∈ [0, 1, 2], meets (setV filed 0 (BitVec.ofNat 32 n)) (.dirdel (hd false (.v 2) (.v 0) .none .none 0)) (fun x =>
      x.lanes.length == 32 && (filed.entryAt x (x.dirIndex 0)).state == (n + 1) % 3) = true := by decide +kernel

/-- dirput and dirmove with nothing to release, and behind a load in flight; moves to a core of the virtual device, to the core itself
and to one that it does not own. -/
theorem witness_DirectoryWords :
    (∀ i ∈ [Instr.dirput (hd false (.v 8) (.v 2) (.v 4) (.v 6) 0), .dirmove (hd false (.v 2) (.v 0) (.v 1) .none 0)],
      (∀ p ∈ [(false, filed), (true, flying true)], meets p.2 i (fun x => !x.lanes.isEmpty && p.2.releaseHold x == p.1 &&
        (p.2.vds.look x.f.t.vd).isSome) = true)) ∧
    (∀ p ∈ [(1, true), (0, false), (500, false)], meets (setV filed 1 (BitVec.ofNat 32 p.1)) (.dirmove (hd false (.v 2) (.v 0) (.v 1) .none 0))
      (fun x => (filed.vds.look 0).any (fun d => ((filed.coresOf d).contains (x.val x.h.b .n32 0) && decide (x.val x.h.b .n32 0 ≠ x.f.core)) == p.2))
        = true) := by decide +kernel

/-- The probe's kernel declares a responder entry; the probe as a responder of a census. -/
def responding : State :=
  let r : Resp := { id := 3, batch := 0, core := 0, index := 0, entry := {}, placed := true, msg := none, closed := false }
  let q : Census := { vd := 0, launch := 0, beam := ⟨0, 1, 0⟩, names := {}, comb := .count, key := 0, mask := 0, arg := 0, entry := 0, decl := {}
                      scanned := [], waits := [], reported := [], counted := [], expected := 1, resps := [r], held := none, answers := 0, errors := 0 }
  onTeam (onVd (oneLane probe) (fun d => { d with slots := [(2, q)] })) (fun t => { t with census := some 2, lanes := [3] })

theorem witness_CensusWords :
    (∀ n ∈ [0, 1], meets (onBeam probe (fun b => { b with decl := { b.decl with resps := List.replicate n 0x05000000 } }))
      (.solicit (hd true (.c 4) (.c 8) (.c 10) (.c 12) 0) .count) (fun x => !x.lanes.isEmpty && x.f.b.resp.isNone && !probe.releaseHold x &&
        x.f.b.decl.resps.length == n && (x.f.b.reg x.h.c 0 1).val.toNat % 16 == 0) = true) ∧
    meets responding (.respond (hd false .none (.v 2) .none .none 0)) (fun x => x.lanes == [0] && !responding.releaseHold x &&
      x.f.t.census == some 2 && x.f.t.lanes[0]? == some 3 && (responding.respOf 0 2 3).any (fun r => !r.closed)) = true ∧
    meets probe (.respond (hd false .none (.v 2) .none .none 0)) (fun x => !x.lanes.isEmpty && x.f.t.census.isNone) = true ∧
    meets (flying true) (.respond (hd false .none (.v 2) .none .none 0)) (fun x => (flying true).releaseHold x) = true := by decide +kernel

/-- sread of each special register; a prism instruction in flight; swrite; FMT values that R140 allows and forbids. -/
theorem witness_SpecialRegisters :
    (∀ r ∈ [Spr.tid, .lane, .beam, .team, .core, .cyc, .ext0, .ext1, .ext2, .emask, .ekind, .tcause, .tpc, .taddr, .part, .fmt],
      meets probe (.sread (hd false (.v 2) (.spr r) .none .none 0)) (fun x => x.h.a == .spr r && !x.lanes.isEmpty && !probe.recordHeld x) = true) ∧
    (let s := probe.addFill { id := 0, beam := ⟨0, 0, 0⟩, names := {}, out := {}, prism := some ⟨0, 0, 0, [], false, none, 0, 0, none, 0, false⟩, gop := none }
     meets s (.sread (hd false (.v 2) (.spr .emask) .none .none 0)) (fun x => s.recordHeld x) = true) ∧
    (∀ r ∈ [Spr.emask, .tpc, .tcause], meets (inHandler probe 0x10) (.swrite (hd true (.spr r) (.c 3) .none .none 0))
      (fun x => x.h.d == .spr r && x.lanes.head? == some 0) = true) ∧
    meets probe (.swrite (hd false (.spr .ekind) (.v 3) .none .none 0)) (fun x => x.h.d == .spr .ekind && x.lanes.head? == some 0) = true ∧
    meets probe (.fmt (hd true .none .imm .none .none 0x6B540)) (fun x => !x.lanes.isEmpty && fmtOk (BitVec.ofNat 32 (x.h.imm.toNat * 4096))) = true ∧
    (∀ p ∈ [(0x6B540000, true), (0xFFFFF000, false)], meets (setC probe 2 (BitVec.ofNat 32 p.1)) (.fmt (hd true .none (.c 2) .none .none 0))
      (fun x => !x.lanes.isEmpty && fmtOk (BitVec.ofNat 32 (x.val x.h.a .n32 0)) == p.2) = true) := by decide +kernel

/-- The probe in a handler, with DONE or without, with a recorded selector or none, and %tpc where the frozen path stands or one index on. -/
def returning (done nas moved : Bool) : State :=
  onBeam (inHandler probe 0x0F) (fun b => { b with
    tcause := if done then 0x20000000 else 0, tpc := if moved then 1 else 0
    handler := b.handler.map (fun k => { k with nas := if nas then some { head := hd false .none .none .none .none 0, gm := 1 } else none }) })

/-- rte of a handler with DONE clear and set, with a selector recorded and none, at the instruction that trapped and at another; the selector of
an instruction that is a nop; errq even and odd; kill of a team, of a launch and of a responder team. -/
theorem witness_ReturnsErrorsKills :
    (∀ d ∈ [false, true], ∀ n ∈ [false, true], ∀ m ∈ [false, true], meets (returning d n m) (.rte (hd true .none .none .none .none 0)) (fun x =>
      !x.lanes.isEmpty && !x.f.b.ordered && x.f.b.tcause.getLsbD 29 == d &&
        x.f.b.handler.any (fun k => k.nas.isSome == n && k.sleep == .ready && k.pend.isNone && k.frozen.run.any (fun p => (p.pc != x.f.b.tpc) == m) &&
          !(((k.frozen.setRun (fun p => { p with pc := x.f.b.tpc })).advance (hd false .none .none .none .none 0) 1 []).paths.isEmpty))) = true) ∧
    (let s := onCore probe (fun c => { c with slots := [(0, { overlay := some 0, words := [0x9003B8FFFFFFFFFF00000000] })] })
     (s.beam? 0 0).any (fun b => (s.teamOf 0 b).isSome && (s.core 0).slotOf 0 == some 0 && (s.vds.look 0).isSome && b.flow.run.any (fun p =>
       idxOf p.pc == 0 && (illegalReason b.limits ((s.core 0).word 0 0)).isNone && ((decodeWord ((s.core 0).word 0 0)).bind (·.view)).any (fun v =>
         v.2.1.nas == .seq) && (s.selectorAt 0 0 b p).isSome)) = true) ∧
    (∀ n ∈ [0, 1], meets probe (.errq (hd true (.c 8) .imm .none .none (BitVec.ofNat 20 n))) (fun x => !x.lanes.isEmpty && (probe.vds.look x.f.t.vd).isSome &&
      x.val x.h.a .n32 0 % 2 == n) = true) ∧
    (∀ n ∈ [0, 1], meets probe (.kill (hd true .none .imm .none .none (BitVec.ofNat 20 n))) (fun x => !x.lanes.isEmpty && x.f.b.resp.isNone &&
      x.val x.h.a .n32 0 % 2 == n && (probe.launch? x.f.t.vd x.f.t.launch).any (fun l => l.teams.look 0 == some (.resident 0))) = true) ∧
    (let s := onCore (onBeam probe (fun b => { b with resp := some 5 })) (fun c => { c with resps := [(5, { vd := 0, launch := 0 })] })
     meets s (.kill (hd true .none .imm .none .none 0)) (fun x => !x.lanes.isEmpty && x.f.b.resp == some 5) = true) := by decide +kernel

/-- rte of a beam with a prism instruction in flight, which its handler has issued, or which it had issued before. -/
theorem witness_HandlersPrism :
    ∀ own ∈ [false, true],
      let q : PrismOut := ⟨0, 1, 0, [], false, none, 0, 0, some 0, 1, own⟩
      let s := (returning false false false).addFill { id := 7, beam := ⟨0, 0, 0⟩, names := { m := [0] }, out := {}, prism := some q, gop := none }
      meets s (.rte (hd true .none .none .none .none 0)) (fun x => !x.lanes.isEmpty && x.f.b.handler.isSome && !x.f.b.ordered &&
        s.fills.any (fun f => f.beam == x.ref && f.prism.any (·.handled)) == own) = true := by decide +kernel

/-- The probe beam in a handler of cause 0x12 with few registers, and an address in c2. -/
def saving (va : Nat) : State :=
  onBeam (setC (inHandler mapped 0x12) 2 (BitVec.ofNat 32 va)) (fun b => { b with decl := { b.decl with vregs := 8, mcap := 0 } })

/-- The same with the mapped pages in a pool range of the virtual device behind a CXL port, in a state of it. -/
def pooled (s : State) (port : PortSt) : State :=
  let s := onVd (onCore s (fun c => { c with tlb := [⟨0, 0, 30, BitVec.ofNat 64 (2 ^ 47 + 0x3F)⟩] })) (fun d => { d with
    descr := d.descr + BitVec.ofNat 1024 (2 ^ 192 * (2 ^ 32 + 2 ^ 33)) })
  { s with mgmt := { s.mgmt with devices := [(2, 2 ^ 47, 1)], ports := [(2, port)] } }

/-- The probe beam in its resume handler with its block in memory, and, where one is given, a mate that has been restored or has not. -/
def restoring (mate : Option Sleep) : State :=
  let s := saving 0x1000
  let b := (s.beam? 0 0).getD { idx := 0, gen := 0, decl := probeDecl, flow := Flow.start 1 0 }
  let s : State := { s with blocks := [(0, (0, b.recorded))], mem := Memory.writeN [] (2 ^ 30 + 0x1000) (controlSection 0) }
  match mate with
  | some w => s.setBeam 0 1 { b with idx := 1, sleep := w }
  | none => s

/-- The block read back begins with its control section. -/
theorem restoring_reads (mate : Option Sleep) :
    (((restoring mate).getBlock [.here (2 ^ 30 + 0x1000), .here (2 ^ 30 + 0x2000)]).1).take 4096 = controlSection 0 := by
  have len : (controlSection 0).length = 4096 := by simp [controlSection]
  have h := Memory.readN_writeN [] (2 ^ 30 + 0x1000) (controlSection 0)
  rw [len] at h
  have m : (restoring mate).mem = Memory.writeN [] (2 ^ 30 + 0x1000) (controlSection 0) := by
    cases mate with
    | none => simp only [restoring]
    | some w => simp only [restoring, State.setBeam, State.updCore, State.setCore]
  simp only [State.getBlock, State.readBytes, m, List.map_cons, List.map_nil, List.flatten_cons]
  rw [List.take_append_of_le_length (Nat.le_of_eq (Memory.readN_length ..).symm), List.take_of_length_le (Nat.le_of_eq (Memory.readN_length ..)), h]

/-- A context that is accepted: the only beam of its team, one whose mate is still to be restored, and the last one; every beam has a
handler to leave, and a path to go on with. -/
theorem witness_ContextRestored : ∀ mate ∈ [none, some Sleep.ready, some .joining],
    let s := restoring mate
    meets s (.ctxld (hd true (.c 4) (.c 2) .none .none 0)) (fun x => !x.lanes.isEmpty && x.f.b.resp.isNone && !s.releaseHold x &&
      x.val x.h.a .n64 0 == 0x1000 && (match (s.blockPlaces x 0x1000 x.f.b.decl.blockSize { r := true }).1 with
        | .at_ ps => ps == [.here (2 ^ 30 + 0x1000), .here (2 ^ 30 + 0x2000)]
        | _ => false) && s.linePz.isEmpty && s.blocks.any (fun e => e.1 == 0 && e.2.1 == x.f.t.vd && e.2.2.idx == x.f.b.idx && e.2.2.decl == x.f.b.decl) &&
      (s.core 0).beams.all (fun e => (e.2.sleep == .joining || e.1 == 0 || mate == some .ready) && !e.2.ordered && e.2.handler.any (fun k =>
        !(resumesAt e.2 k (wakesAs x.f.t e.2.idx k.sleep) (s.returnSel 0 e.1 e.2 k)).paths.isEmpty))) = true := by decide +kernel

/-- A context saved at mapped pages, at one whose walk comes first, at one that has no right, behind a port that is out, and off a page; one
restored with no saved beam behind it; each held. -/
theorem witness_ContextsSavedAndRestored :
    ∀ i ∈ [Instr.ctxsv (hd true (.c 4) (.c 2) .none .none 0), .ctxld (hd true (.c 4) (.c 2) .none .none 0)],
      (∀ p ∈ [(saving 0x1000, 0x1000, 0), (saving (2 ^ 31), 2 ^ 31, 1), (saving 8, 8, 2), (pooled (saving 0x1000) .calibrating, 0x1000, 3),
          (onCore (saving 0x1000) (fun c => { c with tlb := [⟨0, 0, 30, BitVec.ofNat 64 (2 ^ 30 + 0x03)⟩] }), 0x1000, 4)],
        meets p.1 i (fun x => !x.lanes.isEmpty && !p.1.saveHeld x && !p.1.releaseHold x && x.val x.h.a .n64 0 == p.2.1 &&
          (p.2.2 == 2 || (match (p.1.blockPlaces x p.2.1 x.f.b.decl.blockSize { r := true, w := true }).1 with
            | .at_ ps => p.2.2 == 0 && ps.length == 2
            | .walk => p.2.2 == 1
            | .held => p.2.2 == 3
            | .fail c => p.2.2 == 4 && c == 2))) = true) ∧
      (let s : State := { saving 0x1000 with gops := (flying false).gops }
       meets s i (fun x => !x.lanes.isEmpty && s.saveHeld x && s.releaseHold x) = true) := by decide +kernel

/-! ### Witnesses: results, censuses and moves -/

/-- A prism result of the probe beam in flight, with an exception or without, and the beam asleep for it or not. -/
def prisms (exc : Word) (mte asleep : Bool) : State :=
  let h := hd false .none .none .none .none 0
  (onBeam probe (fun b => { b with sleep := if asleep then .prism else .ready, pend := if asleep then some { head := h, gm := 1 } else none })).addFill
    { id := 7, beam := ⟨0, 0, 0⟩, names := { m := [0] }, out := {}, prism := some ⟨0, 1, exc, [(0, 1)], mte, none, 0, 0, some 0, 1, false⟩, gop := none }

theorem witness_PrismCompletions :
    (∀ p ∈ [((0 : Nat), false, false), (1, true, true), (0, true, true)],
      ((prisms (BitVec.ofNat 32 p.1) p.2.1 p.2.2).fills.find? (fun o => o.id == 7)).any (fun f => ((prisms (BitVec.ofNat 32 p.1) p.2.1 p.2.2).ref? f.beam).any (fun b =>
        (b.sleep == .prism) == p.2.2 && !b.ordered && (b.pend.isSome == p.2.2)) && f.prism.any (fun q => q.sample.isNone && q.mte == p.2.1 &&
          (q.exc == 1) == (p.1 == 1) && q.vd == 0 && q.launch == 0)) = true) ∧
    (let s := probe.addFill { id := 7, beam := ⟨0, 0, 0⟩, names := { v := [4] }, out := {}, prism := none, gop := none }
     (s.fills.find? (fun o => o.id == 7)).any (fun f => f.prism.isNone && f.gop.isNone && !s.moves.any (fun m => m.fill == 7) &&
       (s.ref? f.beam).isSome && ((onCore s (fun c => { c with beams := [] })).ref? f.beam).isNone) = true) := by decide +kernel

/-- A census of the probe's virtual device for key 5, with its responders and what is known of them. -/
def census (scanned reported : List Nat) (resps : List Resp) (answers expected : Nat) : Census :=
  { vd := 0, launch := 0, beam := ⟨0, 0, 0⟩, names := { c := [4, 5, 6, 7] }, comb := .addI64, key := 5, mask := 0xFF, arg := 9, entry := 0x05000000
    decl := { vregs := 8 }, scanned := scanned, waits := [], reported := reported, counted := [(0, 1)], expected := expected, resps := resps
    held := none, answers := answers, errors := 0 }

/-- The probe's virtual device with a census in slot 0 and entry 0 of core 0's directory holding key 5. -/
def counting (c : Census) : State := onVd filed (fun d => { d with slots := [(0, c)] })

/-- A responder of the census that has not been placed. -/
def asked : Resp := { id := 3, batch := 0, core := 0, index := 0, entry := { state := 1, key := 5 }, placed := false, msg := none, closed := false }

theorem witness_CensusOpensAndScans :
    (let s := onVd filed (fun d => { d with waiting := [census [] [] [] 0 0] })
     (s.vds.look 0).any (fun d => d.waiting.length == 1 && (d.slots.look 0).isNone) = true) ∧
    ((counting (census [] [] [] 0 0)).vds.look 0).any (fun d => (d.slots.look 0).any (fun c => !c.scanned.contains 0 &&
      ((filed.core 0).entry 0).key &&& c.mask == c.key) && ((counting (census [] [] [] 0 0)).coresOf d).contains 0) = true ∧
    (let s := counting (census [0] [] [asked] 0 0)
     (s.vds.findSome? (fun e => e.2.slots.findSome? (fun q =>
       if ((s.core 0).roomFor q.2.decl).isSome then (q.2.group? 0).map (fun g => (q.1, q.2, g)) else none))).any (fun e => e.1 == 0 &&
       e.2.2 == [asked] && ((s.core 0).roomFor e.2.1.decl).isSome && e.2.1.decl.vregs == 8 && decide (8 ≤ e.2.1.decl.cregs)) = true) := by
  decide +kernel

/-- A value and an error on their way to the router, each combine with a value held; a responder past its bound; a core that reports; a
census that closes, with a commit on its way that bears its bit, and without. -/
theorem witness_CensusAnswersAndCloses :
    (∀ k ∈ [(0 : Nat), 1], ∀ cb ∈ [Comb.addI64, .addF32, .maxF32, .minF32, .or, .count, .first], ∀ j ∈ [(0 : Nat), 1],
      let m : Option DWord := if k = 0 then some 7 else none
      let held : Option DWord := if j = 0 then none else some 1
      ((counting { census [0] [] [{ asked with placed := true, msg := some m }] 0 0 with comb := cb, held := held }).vds.look 0).any (fun d =>
        (d.slots.look 0).any (fun c => (c.resps.find? (fun o => o.id == 3)).any (fun r => r.msg == some m))) = true) ∧
    ((counting (census [0] [] [asked] 0 0)).vds.findSome? (fun e => e.2.slots.findSome? (fun q =>
      (q.2.resps.find? (fun r => r.id == 3)).map (fun r => (e.1, q.1, r))))).any (fun e => !e.2.2.closed) = true ∧
    ((counting (census [0] [] [] 0 0)).vds.look 0).any (fun d => (d.slots.look 0).any (fun c => c.scanned.contains 0 && !c.reported.contains 0 &&
      c.waits.isEmpty)) = true ∧
    (let s := counting (census [0] (List.range 16) [{ asked with closed := true }] 1 1)
     (s.vds.look 0).any (fun d => (d.slots.look 0).any (fun c => (s.coresOf d).all c.reported.contains && c.resps.all (fun r => r.closed &&
       r.msg.isNone) && c.answers + c.errors == c.expected && (s.ref? c.beam).isSome && c.clearing.isNone)) = true) ∧
    (∀ p ∈ [(15, { asked with closed := true }), (16, asked), (16, { asked with msg := some none, closed := true })],
      let s := counting (census [0] (List.range p.1) [p.2] 1 1)
      (s.vds.look 0).any (fun d => (d.slots.look 0).any (fun c => c.clearing.isNone && ((s.coresOf d).any (fun n => !c.reported.contains n) ||
        c.resps.any (fun r => !r.closed || r.msg.isSome)))) = true) ∧
    (∀ ids ∈ [none, some [4]], ∀ st ∈ [MoveSt.committed 0 { state := 1, answered := 1 }, .refused],
      let s : State := { counting { census [0] (List.range 16) [{ asked with closed := true }] 1 1 with clearing := ids } with
        moves := [{ id := 4, vd := 0, src := 0, idx := 1, dst := 1, addr := none, beam := ⟨0, 0, 0⟩, lane := some 0, fill := 6, st := st }] }
      ((s.vds.look 0).any (fun d => (d.slots.look 0).any (fun c => c.clearing == ids)) && s.moves.all (fun m => m.vd == 0 && m.st == st) &&
        !s.creditDue 0 0) = true) ∧
    (∀ k ∈ [(0 : Nat), 1],
      let s : State := { counting (census [0] (List.range 16) [{ asked with closed := true }] 1 1) with
        moves := [{ id := 4, vd := 0, src := 0, idx := 1, dst := 1, addr := none, beam := ⟨0, 0, 0⟩, lane := some 0, fill := 6
                    st := .acked 0 { state := 1 } [k] }] }
      ((s.vds.look 0).any (fun d => (d.slots.look 0).any (fun c => c.answers == c.expected)) && s.creditDue 0 0 == (k == 0)) = true) := by
  decide +kernel

/-- A responder past its bound whose thread runs still, closed or not. -/
theorem witness_RespondersEnd :
    ∀ closed ∈ [false, true],
      let s := counting (census [0] [] [{ asked with placed := true, closed := closed }] 0 0)
      let s := onCore (onBeam s (fun b => { b with resp := some 0 })) (fun c => { c with
        resps := [(0, { vd := 0, launch := 0, census := some 0, lanes := [3] })] })
      (s.cores.findSome? (fun c => (c.2.responders.find? (fun e => e.1 == 3)).map (fun e => (c.1, e.2))) == some (0, 0, 0) &&
        (s.vds.findSome? (fun e => e.2.slots.findSome? (fun q => (q.2.resps.find? (fun r => r.id == 3)).map (fun r => (e.1, q.1, r))))).any
          (fun e => e.2.2.closed == closed)) = true := by decide +kernel

/-- A move of the probe beam in each of its steps. -/
def moving (st : MoveSt) (full : Bool) : State :=
  let s : State := { filed with moves := [{ id := 4, vd := 0, src := 0, idx := 1, dst := 1, addr := none, beam := ⟨0, 0, 0⟩, lane := some 0, fill := 6, st := st }] }
  let s := s.addFill { id := 6, beam := ⟨0, 0, 0⟩, names := { v := [2] }, out := {}, prism := none, gop := none }
  if full then s.updCore 1 (fun c => { c with dir := (List.range 256).map (fun i => (i, { state := 1 })) }) else s

theorem witness_MovesProceed :
    (∀ full ∈ [false, true], ((moving .requested full).moves.find? (fun o => o.id == 4)).any (fun m => m.st == .requested &&
      ((List.range 256).all (fun i => ((moving .requested full).core m.dst).entry i != {})) == full) = true) ∧
    (∀ st ∈ [MoveSt.granted 0, .refused, .committed 0 { state := 1, key := 5 }, .acked 0 { state := 1 } []],
      ((moving st false).moves.find? (fun o => o.id == 4)).any (fun m => m.st == st && ((moving st false).ref? m.beam).isSome &&
        ((moving st false).fills.find? (fun f => f.id == m.fill)).any (fun f => f.beam == m.beam)) = true) := by decide +kernel

/-- A move reserved at the lowest free entry of its destination. -/
theorem test_move_reserves :
    after (exec (.moveReserve 4) (moving .requested false)) (fun t => t.moves.map (·.st) == [.granted 0] && ((t.core 1).entry 0).state == 3) = true := by
  decide +kernel

/-! ### Witnesses: queues, launches, teams -/

/-- The probe's virtual device with a page table and queue 0: its descriptor, TAIL and first packet stand in memory. -/
def queued (p tail : Nat) (x : Queue → Queue) : State :=
  let y : Queue := { desc := 0x40000, base := 0x50000, log2n := 2, ctx := 1, wdog := 5, quant := 1, slice := 100, prio := 1, line := 0
                     thread := some 0 }
  let s : State := { onVd tabled (fun d => { d with queues := [(0, x y)], nextQ := 1 }) with
    threads := [(0, { queue := some (0, 0), fw := some 7 }), (1, { fw := some 7 })] }
  { s with mem := Memory.writeN (Memory.writeN s.mem (2 ^ 30 + 0x40018) (leBytes 8 tail)) (2 ^ 30 + 0x50000) (leBytes 64 p) }

/-- The same with no launch. -/
def unworked (p tail : Nat) : State := onVd (queued p tail id) (fun d => { d with launches := [] })

/-- Does queue 0 come to read a packet? -/
def comes (s : State) (p : Nat) : Bool :=
  (s.vds.look 0).any (fun d => (d.queues.look 0).any (fun x => d.reads 0 x && !s.ringHeld 0 x && (s.tail 0 x).any (fun t => decide (t ≠ x.head ∧
    (t + 2 ^ 64 - x.head) % 2 ^ 64 ≤ 2 ^ x.log2n)) && (match (s.saw 0 (x.desc + 24) 8).packetAt 0 x with | .ok q => q == p | .error _ => false)))

/-- An empty ring, one that is overrun, and one that cannot be read; packets that break their layout and of an unassigned kind. -/
theorem witness_QueuesEmptyAndBroken :
    (∀ t ∈ [0, 5], ((queued 0 t id).vds.look 0).any (fun d => (d.queues.look 0).any (fun x => d.reads 0 x && !(queued 0 t id).ringHeld 0 x && (queued 0 t id).tail 0 x == some t &&
      (t == x.head || decide (2 ^ x.log2n < (t + 2 ^ 64 - x.head) % 2 ^ 64)))) = true) ∧
    (∀ p ∈ [16, 2 ^ 9 + 1 + 2 ^ 14, 2 + 2 ^ 4, 3 + 6 * 2 ^ 4, 4 + 2 ^ 6, 5 + 2 ^ 10, 6 + 2 ^ 4, 7 + 2 ^ 8, 8 + 2 ^ 4, 9 + 2 ^ 4], comes (queued p 1 id) p && !packetOk p) ∧
    (∀ p ∈ [10, 15], comes (queued p 1 id) p = true) ∧
    (let s := queued 0 1 (fun x => { x with base := 2 ^ 31 })
     (s.vds.look 0).any (fun d => (d.queues.look 0).any (fun x => d.reads 0 x && !s.ringHeld 0 x && s.tail 0 x == some 1 &&
       (match (s.saw 0 (x.desc + 24) 8).packetAt 0 x with | .ok _ => false | .error _ => true))) = true) := by decide +kernel

/-- Each kind of packet that keeps its layout comes to be read: a nop, a launch, a graph, a warm-start slot, a deadline, a shape variable set
and added to, a barrier, signals; with work and without. -/
theorem witness_PacketsRead :
    (∀ p ∈ [0, 1, 4, 4 + 2 ^ 4 + 2 ^ 5 + 64 * 2 ^ 64 + 9 * 2 ^ 128, 4 + 3 * 2 ^ 64, 5, 5 + 2 ^ 9 + 2 ^ 4 + 3 * 2 ^ 64, 6 + 0x60000 * 2 ^ 64, 7 + 2 ^ 4, 8 + 9 * 2 ^ 64, 9],
      (comes (queued p 1 id) p && packetOk p && (queued p 1 id).work 0 0 && comes (unworked p 1) p && !(unworked p 1).work 0 0) = true) ∧
    (∀ va ∈ [0x60000, 0x60003], !(unworked 4 1).cpHeld 0 va 4 { w := true } && (match (unworked 4 1).cpPlace 0 va 4 { w := true } with
      | .here pa => pa == 2 ^ 30 + va && !(unworked 4 1).shut pa
      | _ => false) = true ∧ ((unworked 4 1).vds.look 0).any (fun d => decide (d.errq.length < 256)) = true) := by decide +kernel

/-- Copy packets of a length and addresses that start it, of no length, and misaligned; wait-value packets whose condition holds or does
not, for each condition and both widths, and one at a misaligned address. -/
theorem witness_CopiesAndWaits :
    (∀ c ∈ [(0x100, 0x200, 8), (0x100, 0x200, 0), (0x102, 0x200, 8), (0x100, 0x203, 8)],
      let p := 2 + c.1 * 2 ^ 64 + c.2.1 * 2 ^ 128 + c.2.2 * 2 ^ 192
      comes (queued p 1 id) p && packetOk p && !(queued p 1 id).statHeld 0 (slice p 256 64)) ∧
    (∀ k ∈ [(0, 0, 0), (1, 0, 1), (1, 1, 0), (0, 2, 1), (0, 3, 0), (0, 3, 1), (1, 4, 0), (0, 5, 1)],
      let p := 3 + k.2.1 * 2 ^ 4 + k.1 * 2 ^ 7 + 0x60000 * 2 ^ 64 + k.2.2 * 2 ^ 128 + (2 ^ 64 - 1) * 2 ^ 192
      (comes (queued p 1 id) p && packetOk p && !(queued p 1 id).waitHeld 0 p && (queued p 1 id).waitTest 0 p == some ((k.2.2 == 0) == (k.2.1 % 2 == 0)) &&
        (match (queued p 1 id).cpRead 0 0x60000 (if k.1 = 1 then 8 else 4) with | (.ok bs, _) => leNat bs == 0 | _ => false)) = true) ∧
    (let p := 3 + 0x60002 * 2 ^ 64
     comes (queued p 1 id) p && packetOk p && !(queued p 1 id).waitHeld 0 p) ∧
    (let p := 3 + 0x60000 * 2 ^ 64
     let s : State := { queued p 1 id with linePz := [2 ^ 24 + 0x1800] }
     comes s p && (match (s.cpRead 0 0x60000 4).1 with | .ok _ => false | .error c => c == 4)) := by decide +kernel

/-- A graph of one node, whose image stands at 0x60000. -/
def imaged : State :=
  let s := unworked (6 + 0x60000 * 2 ^ 64) 1
  { s with mem := Memory.writeN s.mem (2 ^ 30 + 0x60000) (leBytes 64 1 ++ leBytes 64 1 ++ leBytes 64 0) }

theorem witness_GraphsRead :
    ((imaged.readGraph 0 0x60000).1.any (fun nodes => nodes.length == 1) && comes imaged (6 + 0x60000 * 2 ^ 64) &&
      !imaged.imageHeld 0 (6 + 0x60000 * 2 ^ 64)) = true ∧
    ((unworked (6 + 0x70000 * 2 ^ 64) 1).readGraph 0 0x70000).1.isNone = true := by decide +kernel

/-- A graph read starts with its node waiting; HEAD moves on. -/
theorem test_graph_starts :
    after (exec (.graphPacket 0 0) imaged) (fun t => (t.vds.look 0).any (fun d => (d.graphs.look 0).any (fun g => !g.done &&
      g.nodes.map (fun n => n.2.st) == [.waiting]) && (d.queues.look 0).any (fun x => x.head == 1))) = true := by decide +kernel

/-- An unmapped queue with a free thread; blocked threads that may go on, of each kind. -/
theorem witness_QueuesMapAndGoOn :
    (∀ p ∈ [PowerSt.awake, .waking], let s := onVd (queued 0 1 (fun x => { x with thread := none })) (fun d => { d with power := p, stage := if p = .awake then 0 else 2 })
     (s.vds.look 0).any (fun d => d.power == p && (decide (p = .awake) || decide (d.stage < 3)) && (d.queues.look 0).any (fun x => x.thread.isNone && x.status == 0 && s.tail 0 x == some 1 &&
       !s.cpHeld 0 (x.desc + 24) 8 { r := true })) = true ∧
      s.freeThread = some 1) ∧
    (∀ b ∈ [Blocked.empty, .work, .value 0x60000],
      let s := onVd (unworked (3 + 0x60000 * 2 ^ 64) 1) (fun d => { d with queues := d.queues.upd 0 (fun x => { x with blocked := b }) })
      ((s.threads.getD 0 {}).queue == some (0, 0) && (s.queue? 0 0).any (fun x => x.blocked == b && s.tail 0 x == some 1 && !s.work 0 0 &&
        !s.ringHeld 0 x && (match s.packetAt 0 x with | .ok p => !s.waitHeld 0 p && s.waitTest 0 p == some true | .error _ => false))) = true) := by decide +kernel

/-- Queue 1 of virtual device 0 is to be mapped; the one thread with firmware serves queue 0 of a virtual device. -/
def crowded (v : Nat) (x : Queue → Queue) : State :=
  let y : Queue := { desc := 0x40000, base := 0x50000, log2n := 2, ctx := 0, wdog := 0, quant := 1, slice := 100, prio := 0, line := 0 }
  let s := onVd (queued 0 1 x) (fun d => { d with launches := [], served := false, queues := d.queues ++ [(1, y)] })
  { s with threads := [(0, { queue := some (v, 0), fw := some 7 })], vds := s.vds ++ s.vds.map (fun e => (1, e.2)) }

/-- Queue 0 as that thread serves it. -/
def crowdedQ : Queue :=
  { desc := 0x40000, base := 0x50000, log2n := 2, ctx := 1, wdog := 5, quant := 1, slice := 100, prio := 1, line := 0, thread := some 0 }

/-- The queue of the only thread is halted, empty, blocked on a value, or runs, of another virtual device or of the same. -/
theorem witness_QueuesTakeThreads :
    ∀ p ∈ [(0, { crowdedQ with status := 2 }, some 0), (0, { crowdedQ with blocked := .empty }, some 1), (0, { crowdedQ with blocked := .value 8 }, some 2),
        (1, crowdedQ, some 3), (0, crowdedQ, none)],
      let s := crowded p.1 (fun _ => p.2.1)
      (s.vds.look 0).any (fun d => d.power == .awake && (d.queues.look 1).any (fun x => x.thread.isNone && x.status == 0 && s.tail 0 x == some 1 && x.head == 0 &&
        !s.cpHeld 0 (x.desc + 24) 8 { r := true }) && s.freeThread.isNone && s.threads.all (fun t => t.2.queue == some (p.1, 0)) &&
        (s.queue? p.1 0).any (fun y => !s.work p.1 0 && p.2.2 == (if y.status ≠ 0 then some 0 else match y.blocked with
          | .empty => some 1
          | .value _ => some 2
          | _ => if d.served == false ∧ p.1 ≠ 0 then some 3 else none))) = true := by decide +kernel

/-- A mapped queue whose HEAD can be written. -/
theorem witness_QueuesUnmapped :
    (let s := queued 0 1 id
     (s.queue? 0 0).any (fun x => x.thread == some 0 && (match s.cpPlace 0 (x.desc + 16) 8 { w := true } with
       | .here pa => pa == 2 ^ 30 + 0x40010 && !s.shut pa
       | _ => false))) = true := by decide +kernel

/-- A copy packet in flight between two lines of the package, one whose source is not mapped; graph nodes whose predecessor is done, has
failed, or runs and has triggered; a timer over a bin. -/
def sharing (first : NodeSt) (bin : Bool) : State :=
  let n0 : Node := { packet := 1, succ := BitVec.ofNat 256 (2 ^ 15 + 2 ^ 14 + 1), npred := 0, hasBin := false, rsize := 16, spill := 0, timer := 0
                     st := first, launch := some 0 }
  let n1 : Node := { packet := BitVec.ofNat 512 1, succ := 0, npred := 1, hasBin := bin, rsize := 16, spill := 40, timer := 1
                     launch := if bin then some 0 else none, timing := true, due := true
                     bin := if bin then [{ lane := 0, bytes := List.replicate 16 1, pz := List.replicate 4 false }] else [] }
  onLaunch (onVd (queued 0 1 id) (fun d => { d with graphs := [(0, { queue := 0, stat := 0, nodes := [(0, n0), (1, n1)] })] }))
    (fun l => { l with trigged := true })

/-- A copy packet in flight between two addresses, with a status word; the package with the given leaf bits, ports and poisoned lines. -/
def copying (src dst stat rights : Nat) (pz : List Nat) (port : Option PortSt) : State :=
  let s := onVd (queued 0 1 id) (fun d => { d with peers := [(3, BitVec.ofNat 128 (1 + 2 ^ 32))] })
  let s : State := { s with mgmt := { s.mgmt with ports := port.elim [] (fun p => [(16, p)]) } }
  { s with
    pcopies := [{ id := 9, vd := 0, queue := 0, src := src, dst := dst, len := 8, stat := stat, node := none }]
    linePz := pz
    mem := Memory.writeN s.mem (2 ^ 30 + 2 ^ 16) (leBytes 8 (2 ^ 30 + rights) ++ leBytes 8 (3 * 2 ^ 59 + 0x3F)) }

/-- The copies of the statement: within a line of each end; without a right at the destination; from and to another device; with a
poisoned source; with a status word that is aligned, misaligned, and without a translation; and one that waits for its ports. -/
theorem witness_CopiesMove :
    (∀ stat ∈ [0, 0x300, 0x301, 2 ^ 31], let s := copying 0x100 0x200 stat 0x3F [] none
      (s.pcopies.find? (fun o => o.id == 9)).any (fun c => !s.cpHeld c.vd c.src c.len { r := true } && !s.cpHeld c.vd c.dst c.len { w := true } && !s.statHeld c.vd c.stat &&
        !s.graphHeld c.vd c.node &&
        (match s.cpPlace 0 c.src 8 { r := true }, s.cpPlace 0 c.dst 8 { w := true } with
          | .here pa, .here pb => !s.shut pa && !s.shut pb && !s.linePoisoned pa 8
          | _, _ => false) &&
        (match s.cpPlace 0 stat 8 { w := true } with | .here pw => decide (stat ≠ 2 ^ 31) && !s.shut pw | .fail _ => stat == 2 ^ 31 | .peer _ => false) &&
        (s.vds.look 0).any (fun d => decide (d.errq.length < 256))) = true) ∧
    (match (copying 0x100 0x200 0 0x37 [] none).cpPlace 0 0x200 8 { w := true } with | .fail k => k == 2 | _ => false) = true ∧
    (∀ a ∈ [(2 ^ 30, 0x200), (0x200, 2 ^ 30)], (match (copying a.1 a.2 0 0x3F [] none).cpPlace 0 (2 ^ 30) 8 { r := true, w := true } with
      | .peer dev => dev == 3
      | _ => false) = true) ∧
    (copying 0x100 0x200 0 0x3F [2 ^ 24 + 4] none).linePoisoned (2 ^ 30 + 0x100) 8 = true ∧
    (let s := copying (2 ^ 30) 0x200 0 0x3F [] (some .calibrating)
     s.cpHeld 0 (2 ^ 30) 8 { r := true } && s.statHeld 0 (2 ^ 30)) := by decide +kernel

/-- Queue 0 with a packet, no launch, a graph whose status word, a launch whose status word, and addresses from 2^30 on at another device whose port
is out. -/
def behind (p : Nat) : State :=
  let s := copying 0x100 0x200 0 0x3F [] (some .calibrating)
  let n (k st : Nat) : Node := { packet := BitVec.ofNat 512 k, succ := if st = 0 then 0 else BitVec.ofNat 256 (2 ^ 15 + st), npred := 1, hasBin := false
                                 rsize := 16, spill := 0, timer := 0 }
  let s := onVd s (fun d => { d with
    launches := [(0, { queue := 0, packet := BitVec.ofNat 512 (1 + 2 ^ 30 * 2 ^ 64), node := none })]
    graphs := [(0, { queue := 0, stat := 2 ^ 30, nodes := [(0, { n 1 1 with st := .done 2 }), (1, n 1 0), (2, n 1 0)] })] })
  { s with mem := Memory.writeN s.mem (2 ^ 30 + 0x50000) (leBytes 64 p) }

/-- What ports hold: a ring, a copy packet's status word, a wait, a signal, a graph's image, a copy in flight for a node, the start of a node, of one
that has failed and one that has not, a dispatch and the end of a launch. A TAIL lost to poison, of a queue that is mapped and one that is not. -/
theorem witness_PortsHoldQueues :
    (let s := onVd (behind 0) (fun d => { d with launches := [] })
     (s.vds.look 0).any (fun d => (d.queues.look 0).any (fun x => d.reads 0 x && s.ringHeld 0 { x with base := 2 ^ 30 }))) = true ∧
    (∀ p ∈ [2 + 0x100 * 2 ^ 64 + 0x200 * 2 ^ 128 + 8 * 2 ^ 192 + 2 ^ 30 * 2 ^ 256, 3 + 2 ^ 30 * 2 ^ 64, 4 + 2 ^ 30 * 2 ^ 64, 6 + 2 ^ 30 * 2 ^ 64],
      let s : State := { onVd (behind p) (fun d => { d with launches := [], graphs := [] }) with pcopies := [] }
      (comes s p && packetOk p && (match p % 16 with
        | 2 => s.statHeld 0 (slice p 256 64)
        | 3 => s.waitHeld 0 p
        | 4 => !s.work 0 0 && s.cpHeld 0 (slice p 64 64) 4 { w := true }
        | _ => s.imageHeld 0 p)) = true) ∧
    (behind 0).graphHeld 0 (some (0, 1)) = true ∧
    ((behind 0).vds.look 0).any (fun d => d.dispatches && (d.graphs.look 0).any (fun g => !g.done && edgesTo g.nodes 1 == [(0, false)] &&
      edgesTo g.nodes 2 == [] && (g.nodes.look 2).any (fun n => n.st == .waiting && (behind 0).nodeHeld 0 0 2 n)) &&
      (d.launches.look 0).any (fun x => x.st == .queued && (behind 0).dispatchHeld 0 x.packet x.node)) = true ∧
    (let s := onCore (onLaunch (behind 0) (fun l => { l with st := .draining, stat := some (2 ^ 30) })) (fun c => { c with beams := [], team := none })
     (s.launch? 0 0).any (fun l => l.st == .draining && !s.inFlight 0 0 && s.statHeld 0 (l.stat.getD 0)) = true) ∧
    (∀ t ∈ [none, some 0], let s : State := { queued 0 1 (fun x => { x with thread := t }) with linePz := [2 ^ 24 + 0x1000] }
      (s.vds.look 0).any (fun d => d.power == .awake && (d.queues.look 0).any (fun x => s.tailLost 0 x && d.reads 0 x == t.isSome && x.thread == t &&
        x.status == 0 && !s.ringHeld 0 x && !s.cpHeld 0 (x.desc + 24) 8 { r := true })) = true) := by decide +kernel

/-- A node whose ancestor, and not its predecessor, has failed; a copy node. -/
def chained : State :=
  let n (k st : Nat) : Node := { packet := BitVec.ofNat 512 k, succ := if st = 0 then 0 else BitVec.ofNat 256 (2 ^ 15 + st), npred := 1, hasBin := false
                                 rsize := 16, spill := 0, timer := 0 }
  onVd (queued 0 1 id) (fun d => { d with graphs := [(0, { queue := 0, stat := 0, nodes := [(0, { n 1 1 with st := .done 2 }), (1, { n 1 2 with st := .running }),
    (2, n (2 + 0x100 * 2 ^ 64 + 0x200 * 2 ^ 128 + 8 * 2 ^ 192) 0)] })] })

theorem witness_GraphChains :
    (chained.vds.look 0).any (fun d => (d.graphs.look 0).any (fun g => !g.done && edgesTo g.nodes 1 == [(0, false)] && edgesTo g.nodes 2 == [(1, false)] &&
      (g.nodes.look 0).any (fun n => n.st == .done 2) && (g.nodes.look 2).any (fun n => n.st == .waiting && n.launch.isNone && !chained.nodeHeld 0 0 2 n && !chained.graphHeld 0 (some (0, 2)) &&
        n.packet.toNat % 16 == 2 && decide (slice n.packet.toNat 192 64 ≠ 0 ∧ slice n.packet.toNat 64 64 % 4 = 0 ∧ slice n.packet.toNat 128 64 % 4 = 0)) &&
      d.dispatches)) = true := by decide +kernel

/-- A launch node that waits behind a node that runs, and for whose launch a status is fixed. -/
theorem witness_GraphsSkip :
    let s := onLaunch (sharing .running false) (fun l => { l with code := some 1 })
    (s.vds.look 0).any (fun d => (d.graphs.look 0).any (fun g => !g.done && edgesTo g.nodes 1 == [(0, true)] && (g.nodes.look 0).any (fun n =>
      n.st == .running && n.launch == some 0) && (g.nodes.look 1).any (fun n => n.st == .waiting && n.launch.isNone && n.packet.toNat % 16 == 1) &&
      !s.graphHeld 0 (some (0, 1))) && (d.launches.look 0).any (fun x => x.code == some 1)) = true := by decide +kernel

/-- The bin of `sharing` with its pool at an address; addresses from 2^30 on are at another device whose port is out. -/
def pooling (pool : Nat) : State :=
  let s := copying 0x100 0x200 0 0x3F [] (some .calibrating)
  onVd s (fun d => { d with graphs := ((sharing .running true).vds.getD 0 d).graphs.map (fun g => (g.1, { g.2 with
    nodes := g.2.nodes.map (fun n => (n.1, { n.2 with pool := pool })) })) })

theorem witness_CopiesGraphsBins :
    (∀ c ∈ [(0x100, true), (2 ^ 31, false)],
      let k : PktCopy := { id := 9, vd := 0, queue := 0, src := c.1, dst := 0x200, len := 8, stat := 0, node := none }
      let s : State := { queued 0 1 id with pcopies := [k] }
      (s.pcopies.find? (fun o => o.id == 9) == some k && (match s.cpPlace 0 k.src 8 { r := true }, s.cpPlace 0 k.dst 8 { w := true } with
        | .here pa, .here pb => c.2 && !s.linePoisoned pa 8 && pb == 2 ^ 30 + 0x200
        | .fail _, _ => !c.2
        | _, _ => false) && s.mgmt.ports.isEmpty) = true) ∧
    (∀ st ∈ [NodeSt.done 0, .done 2, .running], ((sharing st false).vds.look 0).any (fun d => (d.graphs.look 0).any (fun g => !g.done &&
      (g.nodes.look 1).any (fun n => n.st == .waiting && !n.hasBin && n.packet.toNat % 16 == 1 && !(sharing st false).nodeHeld 0 0 1 n) &&
        edgesTo g.nodes 1 == [(0, (1 : Nat) == 1)] && d.dispatches && (d.launches.look 0).any (·.trigged))) = true) ∧
    ((sharing .running true).node? 0 0 1).any (fun n => n.timing && !n.bin.isEmpty) = true ∧
    ((sharing .running true).vds.look 0).any (fun d => (d.graphs.look 0).any (fun g => !g.done && (g.nodes.look 1).any (fun n => n.hasBin && n.due &&
      n.launch == some 0 && n.arrays.isEmpty)) && (d.launches.look 0).any (fun x => x.st == .running && x.code.isNone)) = true ∧
    (∀ p ∈ [(0, false), (2 ^ 30, true)], let s := pooling p.1
      (s.node? 0 0 1).any (fun n => n.pool == p.1 && s.cpHeld 0 n.pool ((n.bin.take n.fill).map (·.bytes)).flatten.length { w := true } == p.2) = true) := by
  decide +kernel

/-- A launch queued first of its queue, with its kernel loaded and without; a draining launch; a deadline; watchdogs; a record kept. -/
def launched (x : Launch → Launch) : State :=
  onLaunch (onVd (queued 0 1 id) (fun d => { d with kernels := [(0, { cont := 0, decl := { idem := true }, entry := 0 })] })) x

theorem witness_LaunchesRunAndEnd :
    (∀ k ∈ [0, 3], let s := launched (fun l => { l with st := .queued, packet := BitVec.ofNat 512 (1 + 2 ^ 16 * k) })
      (s.vds.look 0).any (fun d => d.dispatches && (d.queues.look 0).isSome && (d.launches.look 0).any (fun l => l.st == .queued &&
        !s.dispatchHeld 0 l.packet l.node) &&
        d.launches.length == 1 && (d.kernels.look k).isSome == decide (k = 0)) = true) ∧
    (let s := onCore (launched (fun l => { l with st := .draining, dline := 9 })) (fun c => { c with beams := [], team := none })
     (s.launch? 0 0).any (fun l => l.st == .draining && !s.inFlight 0 0 && !s.statHeld 0 (l.stat.getD 0) && !s.graphHeld 0 l.node) = true) ∧
    ((launched (fun l => { l with dline := 9 })).launch? 0 0).any (fun l => l.dline == 9 && l.st == .running) = true ∧
    (∀ st ∈ [LaunchSt.queued, .dispatched, .running], let s := launched (fun l => { l with st := st })
     ((s.queue? 0 0).any (fun y => y.wdog == 5) && (s.parkedOf 0 0).isEmpty && (s.vds.look 0).any (fun d => decide (0 < d.nextL) &&
       (d.launches.look 0).any (fun x => x.queue == 0 && x.st == st && x.code.isNone))) = true) ∧
    (let s := onBeam (launched id) (fun b => { b with sleep := .spawning 1 [{ lane := 3, bytes := List.replicate 16 1, pz := List.replicate 4 false }] })
     ((s.queue? 0 0).any (fun y => y.wdog == 5) && s.parkedOf 0 0 == [(0, 0, 3)] && (s.launch? 0 0).any (fun l => l.queue == 0 && l.st == .running)) = true) ∧
    (let s := onVd probe (fun d => { d with recKept := [(3, [1, 2])], recBase := 2 ^ 30 })
     (s.vds.look 0).any (fun d => d.stage == 0 && d.recKept == [(3, [1, 2])] && decide (3 < leNat (Memory.readN s.mem (d.recBase + 8) 8) + 2 ^ d.recLog)) &&
       s.mgmt.ports.isEmpty) ∧
    (let s := onVd probe (fun d => { d with recKept := [(3, [1, 2])], recBase := 2 ^ 30, power := .collapsed, stage := 4 })
     (s.vds.look 0).any (fun d => decide (3 ≤ d.stage)) = true) ∧
    (let s : State := { onVd probe (fun d => { d with recKept := [(3, [1, 2])], recBase := 2 ^ 30 }) with linePz := [2 ^ 24] }
     (s.vds.look 0).any (fun d => d.stage == 0 && s.linePoisoned d.recBase 16) = true) ∧
    (let s := sharing .running false
     (s.vds.look 0).any (fun d => ((d.queuedNodes 0).map (fun e => (e.1, e.2.1)) == [(0, 1)]) && (s.node? 0 0 1).isSome &&
       (s.queue? 0 0).any (fun y => y.wdog == 5) && (s.parkedOf 0 0).isEmpty)) = true := by decide +kernel

/-- A launch that comes to be judged: the words that begin its extent expressions, bits of its packet, and its kernel. -/
def judged (va : Nat) (ws : List Nat) (bits : Nat) (k : Kernel) : State :=
  let s := launched (fun l => { l with st := .queued, packet := BitVec.ofNat 512 (1 + va * 2 ^ 64 + bits) })
  onVd { s with mem := Memory.writeN s.mem (2 ^ 30 + 0x60000) ((ws.map (leBytes 32)).flatten) } (fun d => { d with kernels := [(0, k)] })

/-- An extent block that cannot be read, one that gives no extents, one of 2, of 0; a count that is no multiple of the cluster; a team that
fits on no core; each is judged for itself. -/
theorem witness_LaunchesJudged :
    ∀ p ∈ [(2 ^ 31, [0x2001, 0x2001, 0x2001], 0, 0, (0 : Nat)), (0x60000, [0x2001, 0x1040, 0], 0, 0, 1), (0x60000, [0x2002, 0x2001, 0x2001], 0, 0, 2),
        (0x60000, [0x2000, 0x2001, 0x2001], 0, 0, 3), (0x60000, [0x2001, 0x2001, 0x2001], 2 ^ 5 + 2 ^ 37, 0, 4),
        (0x60000, [0x2001, 0x2001, 0x2001], 31 * 2 ^ 32, 256, 5)],
      let s := judged p.1 p.2.1 p.2.2.1 { cont := 0, decl := { idem := true, vregs := p.2.2.2.1 }, entry := 0 }
      (s.vds.look 0).any (fun d => d.dispatches && (d.launches.look 0).any (fun x => x.st == .queued && !x.bin && !s.dispatchHeld 0 x.packet x.node &&
        (d.queues.look x.queue).any (fun q => slice x.packet.toNat 9 1 == 0 && d.quotaHolds 0 && (d.kernels.look (slice x.packet.toNat 16 16)).any (fun k =>
          let rows := (slice x.packet.toNat 32 5 + 1 + 3) / 4
          match (s.cpRead 0 (slice x.packet.toNat 64 64) 128).1 with
          | .error _ => p.2.2.2.2 == 0
          | .ok bs => leNat ((bs.drop 104).take 24) == 0 && (decide (1024 < rows * k.decl.vregs) == (p.2.2.2.2 == 5)) &&
            (match d.extents q.ctx bs with
              | none => p.2.2.2.2 == 1
              | some e => e == (match p.2.2.2.2 with | 2 => [2, 1, 1] | 3 => [0, 1, 1] | _ => [1, 1, 1]) &&
                (decide (e.foldl (· * ·) 1 % (slice x.packet.toNat 37 4 + 1) ≠ 0) == (p.2.2.2.2 == 4)) && p.2.2.2.2 != 0))))) = true := by decide +kernel

/-- Team 1 of the launch may be placed on core 1, at a turn of its queue or at the end of its quantum; a save area is allocated or not. -/
def placing (deficit : Int) : State :=
  onVd (launched (fun l => { l with ext := [2, 1, 1], count := 2, args := [7] })) (fun d => { d with
    queues := d.queues.upd 0 (fun x => { x with deficit := deficit }) })

/-- A second queue of a higher level starves: the other cores of the cluster are retired. -/
def starving (save : Bool) : State :=
  let s := onTeam (onCore (launched (fun l => { l with ext := [1, 1, 1] })) (fun c => { c with slots := [] }))
    (fun t => { t with decl := { t.decl with idem := !save } })
  let s := onVd s (fun d => { d with
    queues := d.queues.put 1 { desc := 0x41000, base := 0x51000, log2n := 2, ctx := 1, wdog := 5, quant := 1, slice := 100, prio := 0, line := 64 }
    launches := d.launches.put 1 { queue := 1, packet := 1, node := none, st := .running, number := some 1, count := 1, ext := [1, 1, 1] } })
  { s with cores := s.cores ++ ((((s.vds.look 0).toList.flatMap s.coresOf).filter (· ≠ 0)).map (fun n =>
      (n, { retired := true }))) }

theorem witness_TeamsPlaced :
    ∀ deficit ∈ [5, 0], ((placing deficit).vds.look 0).any (fun d => (d.launches.look 0).any (fun l => (d.kernels.look l.handle).any (fun k =>
      d.power == .awake && ((placing deficit).ready 0 d).contains (0, 0, 1) && (placing deficit).freeFor d l k.decl 1 1 && !(placing deficit).awaited 0 d 1 1 && !l.clustered &&
      (l.teams.look 1).isNone && l.needs 1 == [1] && (match d.turnOf ((placing deficit).placeables 0 d) ((placing deficit).ready 0 d) l.queue with
        | .go _ => decide (deficit = 5)
        | .rotate _ q => q == 0 && decide (deficit = 0)
        | .wait => false)))) = true := by decide +kernel

/-- The launch with its core free: a cluster launch of two teams, or team 1 of it saved with one beam. -/
def freed (p : Nat) (teams : FMap TeamSt) (next : Nat) : State :=
  onCore (withHandler (onLaunch (placing 5) (fun l => { l with packet := BitVec.ofNat 512 p, teams := teams, placed := [], next := next })))
    (fun c => { c with team := none, beams := [] })

/-- The saved team of that launch. -/
def savedTwo : SavedTeam := { team := { vd := 0, launch := 0, index := 1, area := some 0x1000 }, counters := [(2, 9)], beams := [(0, { idx := 0, gen := 0, decl := {}, flow := Flow.start 1 0, tpc := 5 })] }

/-- A cluster of two teams, and a saved team, that may be placed on core 0. -/
theorem witness_ClustersAndSavedPlaced :
    ∀ v ∈ [(freed (1 + 2 ^ 5 + 2 ^ 37) [] 0, 0), (freed 1 [(0, .ended), (1, .saved savedTwo)] 2, 1)],
      (v.1.vds.look 0).any (fun d => (d.launches.look 0).any (fun l => (d.kernels.look l.handle).any (fun k =>
        d.power == .awake && (v.1.ready 0 d).contains (0, 0, v.2) && v.1.freeFor d l k.decl v.2 0 && (l.needs 0).all (fun c => !v.1.awaited 0 d 1 c) &&
        l.clustered == (v.2 == 0) && slice l.packet.toNat 37 4 == 1 - v.2 && l.beams == 1 && (l.teams.look v.2 == if v.2 = 0 then none else some (.saved savedTwo)) &&
        (d.overlays.look 255).isSome && (match d.turnOf (v.1.placeables 0 d) (v.1.ready 0 d) l.queue with | .go _ => true | _ => false)))) = true := by
  decide +kernel

/-- A saved team placed again is in its resume handler, with its counters. -/
theorem test_saved_resumes :
    after (exec (.teamPlace 0 0 1 0) (freed 1 [(0, .ended), (1, .saved savedTwo)] 2)) (fun t => (t.core 0).counters == [(2, 9)] &&
      (t.beam? 0 0).any (fun b => b.tpc == 5 && b.tcause == 0x12 && b.handler.isSome && b.flow.pc == codeAddr 255 0)) = true := by decide +kernel

/-- Launches that use a warm-start slot: bound, and not. -/
theorem witness_WarmStarts :
    ∀ k ∈ [0, 1],
      let s := launched (fun l => { l with st := .queued, packet := BitVec.ofNat 512 (1 + 2 ^ 9 + 2 ^ 10 * k) })
      let s := onVd s (fun d => { d with queues := d.queues.upd 0 (fun x => { x with warm := [(0, { bufA := 64, bufB := 128, phase := false })] }) })
      ((s.vds.look 0).any (fun d => d.dispatches && (d.queues.look 0).any (fun q => (q.warm.look k).isSome == decide (k = 0)) && d.launches.length == 1 &&
        (d.launches.look 0).any (fun l => l.st == .queued && !s.dispatchHeld 0 l.packet l.node && slice l.packet.toNat 9 1 == 1 &&
          slice l.packet.toNat 10 4 == k))) = true := by decide +kernel

/-- A launch with a warm-start slot that drains, with status 0 and with another. -/
theorem witness_WarmStartsEnd :
    ∀ c ∈ [none, some 1],
      let s := onCore (launched (fun l => { l with st := .draining, code := c, packet := BitVec.ofNat 512 (1 + 2 ^ 9) })) (fun c => { c with beams := [], team := none })
      let s := onVd s (fun d => { d with queues := d.queues.upd 0 (fun x => { x with warm := [(0, { bufA := 64, bufB := 128, phase := false })] }) })
      ((s.launch? 0 0).any (fun l => l.st == .draining && l.code == c && !s.inFlight 0 0 && !s.statHeld 0 (l.stat.getD 0) && !s.graphHeld 0 l.node &&
        (s.queue? 0 l.queue).any (fun q => (q.warm.look (slice l.packet.toNat 10 4)).isSome))) = true := by decide +kernel

theorem witness_TeamsPreempted :
    ∀ save ∈ [false, true], ((starving save).vds.look 0).any (fun d => (d.queues.look 0).any (fun x =>
      (starving save).levelAt 0 == some (0, 0, 1) && decide (x.slice ≠ 0) && (starving save).residentAt 0 &&
      ((starving save).starved 0 d).any (fun e => e.1 == 1 && decide (d.prio e.1 < 1)) && (starving save).victim 0 d 1 0 &&
      ((starving save).victimKey 0).any (fun key => ((starving save).coresOf d).all (fun c => !(starving save).residentAt c ||
        ((starving save).victimKey c).all (fun y => !victimBefore y key))) &&
      ((starving save).core 0).team.any (fun t => t.position.isNone && t.decl.idem == !save))) = true := by decide +kernel

theorem witness_TeamsLeave :
    (let s := onCore (onLaunch probe (fun l => { l with teams := [(0, .discarding 0)] })) (fun c => { c with team := none, beams := [] })
     ((s.launch? 0 0).any (fun l => l.teams.look 0 == some (.discarding 0)) && (s.core 0).kept.isEmpty && !s.leftovers 0 0 0) = true) ∧
    (let s := onBeam (onLaunch probe (fun l => { l with teams := [(0, .saving 0)] })) (fun b => { b with sleep := .saved })
     ((s.launch? 0 0).any (fun l => l.teams.look 0 == some (.saving 0)) && (s.core 0).team.any (fun t => t.position.isNone && t.vd == 0 &&
       t.launch == 0 && t.index == 0) && s.saveDone 0 && !s.asking 0 && !s.farCopies 0) = true) ∧
    (({ probe with gov := [(2, { held := [(0, 0)] })] } : State).gov.look 2).isSome = true := by decide +kernel

/-- A team placed starts at the kernel's entry with its argument in c5. -/
theorem test_team_starts :
    after (exec (.teamPlace 0 0 1 1) (placing 5)) (fun t => (t.beam? 1 0).any (fun b => (b.creg 5).val == 7 && b.flow.pc == 0)) = true := by
  decide +kernel

/-! ### Witnesses: power, ports, management -/

/-- The probe's virtual device with nothing running, of a wake class, in a power state. -/
def still (cls : Nat) (p : PowerSt) : State :=
  let s := onVd probe (fun d => { d with
    descr := d.descr + BitVec.ofNat 1024 (2 ^ 544 * 100 + 2 ^ 576 * cls + 2 ^ 464 * (2 ^ 30 + 2 ^ 20) + (if cls = 3 then 2 ^ 656 * 2 ^ 47 else 0))
    launches := [], power := p })
  onCore s (fun c => { c with team := none, beams := [], dir := [(3, { state := 1, key := 5 })] })

theorem witness_PowerAndCores :
    (∀ w ∈ [false, true], let s : State := { still 0 .awake with wakeBits := [(9, (0, w))] }
      (s.vds.look 0).any (fun d => d.power == .awake && slice d.descr.toNat 544 32 == 100 && s.idle 0 d &&
        (s.wakeBits.any (fun e => e.2 == (0, true))) == w) = true) ∧
    (∀ cls ∈ [0, 1, 2, 3], ((still cls .collapsing).vds.look 0).any (fun d => d.power == .collapsing && d.stage == 0 && slice d.descr.toNat 576 2 == cls &&
      d.segments == [1] && d.cores.length == 16 && ((still cls .collapsing).core 0).entry 3 == { state := 1, key := 5 } &&
      (decide (cls < 3) || decide (2 ^ 47 ≤ slice d.descr.toNat 656 48))) = true) ∧
    (∀ p ∈ [PowerSt.collapsed, .collapsing], ∀ stage ∈ [0, 1, 3, 4], let s : State := { onVd (still (min (stage - 1) 3) p) (fun d => { d with stage := stage }) with
        wakeBits := [(9, (0, true))], linePz := [2 ^ 24 + 2 ^ 14] }
      (s.wakeBits.look 9 == some (0, true) && (s.vds.look 0).any (fun d => d.power == p && d.stage == stage && slice d.descr.toNat 464 48 == 2 ^ 30 + 2 ^ 20 &&
        d.cores.length == 16) && s.linePoisoned (2 ^ 30 + 2 ^ 20) 32 && !s.linePoisoned (2 ^ 30 + 2 ^ 20 + 64) 32) = true) ∧
    (∀ cls ∈ [0, 1, 2, 3], ((onVd (still cls .waking) (fun d => { d with notices := [2], counting := [d.dies.headD 0] })).vds.look 0).any (fun d =>
      d.notices.contains 2 && d.power == .waking && d.counting.contains (d.dies.headD 0) && d.wokeBy.isNone && !d.faulted && slice d.descr.toNat 576 2 == cls &&
      decide (d.errq.length < 256)) = true) ∧
    (∀ l ∈ [none, some ⟨0, 0, 0, false⟩], ((onVd probe (fun d => { d with power := .waking, counting := [0], wokeBy := l })).vds.look 0).any (fun d =>
      d.notices.isEmpty && d.power == .waking && d.counting.contains 0 && d.wokeBy == l && (d.launches.look 0).any (fun x => x.st == .running &&
        x.candidates.isEmpty)) = true) ∧
    probe.pointOf 0 < 3 ∧
    (let s := onCore (still 0 .awake) (fun c => { c with retired := true })
     s.mayRetire 0 = true ∧ s.mgmt.spares.getD (dieOf 0) 16 = 16) := by decide +kernel

/-- A retired core in the last whole cluster of its virtual device, on a die without a spare, while a cluster launch runs. -/
theorem witness_LastClusterLost :
    let s := onLaunch (onCore (still 0 .awake) (fun c => { c with retired := true })) (fun l => { l with packet := BitVec.ofNat 512 (1 + 2 ^ 5) })
    let s : State := { onVd s (fun d => { d with launches := ((probe.vds.look 0).map (·.launches)).getD [] }) with
      mgmt := { s.mgmt with spares := [(dieOf 0, 0)] } }
    let s := onLaunch s (fun l => { l with packet := BitVec.ofNat 512 (1 + 2 ^ 5) })
    (s.mayRetire 0 && s.mgmt.spares.getD (dieOf 0) 16 == 0 && (s.vds.look 0).any (fun d => d.cores.contains 0 && d.stage == 0 &&
      s.vds.find? (fun e => e.2.cores.contains 0) == some (0, d) && d.clusters == [0] && (d.launches.look 0).any (fun x => decide (0 < d.nextL) &&
        slice x.packet.toNat 5 1 == 1 && x.st == .running))) = true := by decide +kernel

/-- A virtual device of class 3 whose eclipse area lies behind a CXL port, in a state of it. -/
def eclipsed (p : PowerSt) (stage : Nat) (port : PortSt) : State :=
  let s := onVd (still 3 p) (fun d => { d with stage := stage })
  { s with wakeBits := [(9, (0, true))], mgmt := { s.mgmt with devices := [(2, 2 ^ 47, 4)], ports := [(2, port)] } }

/-- Collapses and wakes that a port holds, and that it does not; a wake that completes with a queue to serve first. -/
theorem witness_PortsHoldPower :
    (∀ port ∈ [PortSt.calibrating, .secure], ∀ p ∈ [(PowerSt.collapsing, 0), (.collapsed, 4), (.waking, 4)],
      ((eclipsed p.1 p.2 port).vds.look 0).any (fun d => d.power == p.1 && d.stage == p.2 && (eclipsed p.1 p.2 port).eclipseHeld d == (port == .calibrating) &&
        (eclipsed p.1 p.2 port).wakeBits.look 9 == some (0, true) && (eclipsed p.1 p.2 port).mgmt.ports.all (fun e => e.2 != .failed)) = true) ∧
    (∀ stage ∈ [0, 1, 2, 3], ∀ n ∈ [[], [2]], ((onVd (still (min (stage - 1) 3) .waking) (fun d => { d with stage := stage, notices := n })).vds.look 0).any (fun d =>
      d.power == .waking && d.stage == stage && d.notices == n) = true) ∧
    (let s := onVd (queued 0 1 (fun x => { x with thread := none })) (fun d => { d with power := .waking, counting := [0], served := false })
     (s.vds.look 0).any (fun d => d.notices.isEmpty && d.power == .waking && !d.served && (d.queues.look 0).any (fun x => x.thread.isNone && x.status == 0 &&
       s.tail 0 x == some 1)) = true) := by decide +kernel

/-- The package with an owner, whose host holds association 1 on the management path, and key set 0. -/
def managed (s : State) : State :=
  { s with mgmt := { s.mgmt with
      listed := [(0, 5), (1, 6)], owner := some 0, ownerKey := 5, open_ := false, assocs := [(1, { host := 5, bound := .mgmt, salt := 0 })]
      keysets := [(0, { k1 := 0, k2 := 0, keys := [] }), (1, { k1 := 0, k2 := 0, keys := [] }), (2, { k1 := 3, k2 := 4, keys := [] })], nextKey := 3 } }

/-- A request on association 1. -/
def req (op args : Nat) (body : List Byte) : MReq := { assoc := 1, header := BitVec.ofNat 512 (op + 2 ^ 32 * body.length + args), body := body }

/-- A value in ARGS from a header byte. -/
def arg (at_ value : Nat) : Nat := 2 ^ (8 * at_) * value

/-- The request reaches its operation. -/
def served (s : State) (r : MReq) (op : Nat) (may : Bool) (fields : List (Nat × Nat)) : Bool :=
  reqOp r == op && s.onPath r && may && reqShape r fields

/-- A copy in that has read a line behind CXL port 2; a port, and CXL port 2, in a state. -/
def readBehind (st : PortSt) (key : Nat) : State :=
  let s := stillCopying probe 0
  { s with
    mgmt := { s.mgmt with devices := [(2, 2 ^ 47, 4)], ports := [(key, st)] }
    copies := s.copies.map (fun c => { c with rows := c.rows.map (fun r => { r with st := .ready [{ dev := 0, addr := 2 ^ 47, data := [1, 2, 3, 4], pz := false }] }) }) }

/-- Ports of each kind and state, with a copy in that has read behind one of them; a device that may join; an association with a packet number
seen. -/
theorem witness_PortsJoinAndAgree :
    (∀ c ∈ [true, false], ∀ st ∈ [PortSt.secure, .calibrating, .failed],
      let s : State := { probe with mgmt := { probe.mgmt with ports := [(if c then 3 else 19, st)] } }
      (portOk { cxl := c, index := 3 } && s.mgmt.ports.getD (if c then 3 else 19) .secure == st) = true) ∧
    (let s : State := { probe with mgmt := { probe.mgmt with devices := [(2, 2 ^ 47, 4)] } }
     s.mgmt.devices.all (fun d => decide (2 ^ 47 + 4 * 2 ^ 30 + 2 ^ 30 ≤ d.2.1 ∨ d.2.1 + d.2.2 * 2 ^ 30 ≤ 2 ^ 47 + 4 * 2 ^ 30)) = true) ∧
    (∀ key ∈ [2, 18], let s : State := readBehind .calibrating key
      let t : State := { s with mgmt := { s.mgmt with ports := s.mgmt.ports.put key .failed } }
      (s.mgmt.ports.getD key .secure == .calibrating && portOk { cxl := decide (key < 16), index := key % 16 } &&
        portKey { cxl := decide (key < 16), index := key % 16 } == key && s.copies.all (fun c => !c.out && c.kind != .near &&
          c.rows.all (fun r => r.st.pieces.all (fun p => p.dev == 0 && (t.shut p.addr && !s.shut p.addr) == decide (key < 16))))) = true) ∧
    probe.assoc? 1 = none ∧ ((managed probe).assoc? 1).any (fun a => a.host == 5) = true := by decide +kernel

/-- Association 1 bound, with number 7 seen. -/
def bound (b : Binding) : State :=
  let s := managed tabled
  { s with mgmt := { s.mgmt with assocs := [(1, { host := 5, bound := b, salt := 0, top := 7, seen := [7] })] } }

/-- The virtual device of association 1 with a pool range behind CXL port 2, which maps addresses from 2^30 on; and a packet of it, taken. -/
def pooledHost (st : PortSt) (pkt : List Packet) : State :=
  let s := onVd (bound (.vdev 0)) (fun d => { d with descr := d.descr + BitVec.ofNat 1024 (2 ^ 192 * (2 ^ 32 + 2 ^ 33)) })
  { s with
    mem := Memory.writeN s.mem (2 ^ 30 + 2 ^ 16 + 8) (leBytes 8 (2 ^ 47 + 0x3F))
    mgmt := { s.mgmt with devices := [(2, 2 ^ 47, 1)], ports := [(2, st)], packets := pkt } }

/-- Rows, reads and atomics that a port holds or lets through, fresh and taken before. -/
theorem witness_PacketsHeld :
    ∀ r ∈ [Remote.rows [(2 ^ 30, [1])], .read (2 ^ 30) 8, .atomic .add .n32 (2 ^ 30) 1 0], ∀ st ∈ [PortSt.calibrating, .secure], ∀ taken ∈ [false, true],
      let k : Packet := { assoc := 1, number := 9, tagOk := true, port := 0, payload := .remote r }
      let s := pooledHost st (if taken then [k] else [])
      ((s.assoc? 1).any (fun a => a.bound == .vdev 0 && !decide (k.number ∈ a.seen ∨ k.number + 1024 ≤ a.top) &&
        s.packetHeld k a.bound == (st == .calibrating)) && s.mgmt.packets.contains k == taken && s.mgmt.ports.getD 16 .secure == .secure &&
        (s.hostPlace 0 (2 ^ 30) 1 { r := true, w := true, a := true }).isSome) = true := by decide +kernel

theorem witness_PacketsReceived :
    (∀ p ∈ [(7, true), (8, false), (8, true)], ((bound .mgmt).assoc? 1).any (fun a =>
      (decide (p.1 ∈ a.seen ∨ p.1 + 1024 ≤ a.top)) == (p.1 == 7) && a.bound.managed && (bound .mgmt).mgmt.ports.isEmpty) = true) ∧
    (requestEvent (req 0x20 0 [])).isSome = true ∧
    (∀ p ∈ [(0x40, true), (2 ^ 31, false)], ((bound (.vdev 0)).hostPlace 0 p.1 3 { w := true }).isSome = p.2) ∧
    (∀ n ∈ [4, 8], ((bound (.vdev 0)).hostPlace 0 0x40 n { w := true, a := true }).any (fun pa => !(bound (.vdev 0)).linePoisoned pa n) = true) ∧
    (let s : State := { bound (.vdev 0) with linePz := [2 ^ 24 + 1] }
     (s.hostPlace 0 0x40 8 { w := true, a := true }).any (fun pa => s.linePoisoned pa 8) = true) ∧
    ((bound (.vdev 0)).hostPlace 0 (2 ^ 31) 8 { w := true, a := true }).isNone = true ∧ (bound .mgmt).mgmt.ports.getD 16 .secure = .secure ∧
    ((bound (.vdev 0)).vds.look 0).any (fun d => decide (d.errq.length < 256)) = true := by decide +kernel

/-- Requests of a host that may not ask, and of one that may with the wrong length. -/
theorem witness_RequestsRefused :
    (let s : State := { managed probe with mgmt := { (managed probe).mgmt with owner := some 1, ownerKey := 6 } }
     ∀ op ∈ [0x01, 0x05, 0x22, 0x31, 0x0A], s.onPath (req op 0 []) && !s.isOwner (req op 0 []) && !s.isBound (req op 0 []) && !s.isNamed (req op 0 [])) ∧
    (let s : State := { managed probe with mgmt := { (managed probe).mgmt with listed := [(1, 6)] } }
     (s.onPath (req 0x20 0 []) && !s.authorised (req 0x20 0 []) && !s.mgmt.listed.isEmpty) = true) ∧
    ((managed probe).isOwner (req 0x01 (2 ^ 32 * 9) []) && slice (req 0x01 (2 ^ 32 * 9) []).header.toNat 32 32 != (req 0x01 (2 ^ 32 * 9) []).body.length) = true := by
  decide +kernel

/-- Requests whose header or payload is not that of their row: a byte set that no field names, a length in the header that is not the
payload's, a payload of another length, a byte of the first eight that the row leaves zero. -/
theorem witness_RequestsMalformed :
    (∀ p ∈ [(0x02, arg 40 1, []), (0x02, 2 ^ 32 * 9, []), (0x02, 0, [(1 : Byte)]), (0x02, 2 ^ 8, []), (0x04, arg 24 1, []), (0x01, 0, [])],
      let r := req p.1 p.2.1 p.2.2
      ((managed probe).onPath r && (managed probe).isOwner r && reqOp r == p.1 && !(reqShape r (if p.1 = 0x04 then [(16, 8)] else []) &&
        r.body.length == (if p.1 = 0x01 then 128 else 0))) = true) ∧
    (let s : State := { managed probe with mgmt := { (managed probe).mgmt with handover := some (0, 3) } }
     s.isNamed (req 0x31 0 []) && (managed probe).authorised (req 0x30 0 []) && (managed probe).authorised (req 0x20 (arg 16 1) [])) = true := by decide +kernel

/-- Claims: with an empty list, and of a listed host; a handover named. The digest of the claim's key is listed. -/
theorem witness_ClaimsAndHandovers :
    (let s : State := { managed probe with mgmt := { (managed probe).mgmt with listed := [], open_ := true } }
     served s (req 0x30 0 (List.replicate 7219 0)) 0x30 (s.authorised (req 0x30 0 (List.replicate 7219 0)) || s.mgmt.listed.isEmpty) [] = true ∧
      s.mgmt.open_ = true) ∧
    served (managed probe) (req 0x0F (arg 16 1) []) 0x0F ((managed probe).isOwner (req 0x0F (arg 16 1) [])) [(16, 1)] = true ∧
    ((managed probe).mgmt.listed.look 1).isSome = true ∧
    (let s : State := { managed probe with mgmt := { (managed probe).mgmt with handover := some (0, 3) } }
     served s (req 0x31 0 (List.replicate 7219 0)) 0x31 (s.isNamed (req 0x31 0 (List.replicate 7219 0))) [] = true) := by decide +kernel

/-- A list that holds the digest of a claim's key. -/
theorem witness_ClaimsListed (body : List Byte) :
    let s : State := { probe with mgmt := { probe.mgmt with listed := [(2, Config.sha3_512 (body.take 2592))], handover := some (2, 0) } }
    s.indexOf (Config.sha3_512 (body.take 2592)) = some 2 ∧ s.mgmt.listed.look 2 = some (Config.sha3_512 (body.take 2592)) := by
  simp [State.indexOf, FMap.look]

/-- Elections that close with claims and without; an owner lost; digests, status, bindings, key sets and firmware; threads that switch. -/
theorem witness_OwnersAndRequests :
    (let s : State := { probe with mgmt := { probe.mgmt with claims := [(1, 6), (0, 5)] } }
     s.mgmt.open_ = true ∧ (0, 5) ∈ s.mgmt.claims ∧ ∀ c ∈ s.mgmt.claims, 0 ≤ c.1) ∧
    (managed probe).mgmt.owner ≠ none ∧ probe.mgmt.claims = [] ∧
    (∀ p ∈ [(0x0E, arg 16 3, List.replicate 64 (1 : Byte), [(16, 2)]), (0x0E, arg 16 3 + arg 17 1, [], [(16, 2)]), (0x20, 0, [], []),
        (0x07, arg 16 1, [], [(16, 8), (24, 1)]), (0x07, arg 16 1 + arg 24 1, [], [(16, 8), (24, 1)]), (0x03, 0, List.replicate 128 0, []),
        (0x0D, arg 16 5, List.replicate 4740 0, [(16, 4)])],
      served (managed probe) (req p.1 p.2.1 p.2.2.1) p.1 ((managed probe).isOwner (req p.1 p.2.1 p.2.2.1)) p.2.2.2 = true) ∧
    (managed probe).authorised (req 0x20 0 []) = true ∧ (managed probe).mgmt.nextKey < 2 ^ 16 ∧ (managed probe).mgmt.held = [] ∧
    (let s : State := { onVd probe (fun d => { d with launches := [] }) with threads := [(0, { queue := some (0, 0), next := some 3 })] }
     (s.threads.getD 0 {}).next = some 3 ∧ ((s.vds.look 0).any (fun d => d.launches.isEmpty && d.graphs.isEmpty)) = true) ∧
    (∀ s ∈ [launched id, onVd (sharing .running false) (fun d => { d with launches := [] })],
      let s : State := { s with threads := [(0, { queue := some (0, 0), next := some 3 })] }
      ((s.vds.look 0).any (fun d => d.launches.any (fun l => l.2.queue == 0 && l.2.st != .done) || d.graphs.any (fun g => g.2.queue == 0 && !g.2.done &&
        g.2.nodes.any (fun n => n.2.st == .waiting && n.2.packet.toNat % 16 == 1)))) = true) := by decide +kernel

/-- Creations that are accepted under number 1, that ask for an owned cluster or key set, and that ask for no cluster. -/
theorem witness_DevicesCreated :
    ∀ p ∈ [(2 ^ 857 + 2 ^ 705 + 2 ^ 730 + 2 ^ 592 * 2 ^ 31 + 2 ^ 528, 0), (2 ^ 857 + 2 ^ 704 + 2 ^ 730 + 2 ^ 592 * 2 ^ 31 + 2 ^ 528, 3),
        (2 ^ 857 + 2 ^ 705 + 2 ^ 730 + 2 ^ 592 * 2 ^ 31, 3), (0, 2)],
      let body := leBytes 128 p.1
      (served (managed probe) (req 0x01 0 body) 0x01 ((managed probe).isOwner (req 0x01 0 body)) [] && body.length == 128 &&
        (managed probe).creation { descr := BitVec.ofNat 1024 (leNat body) } == p.2 && ((managed probe).vds.look 1).isNone &&
        ((managed probe).vds.look 0).isSome) = true := by decide +kernel

/-- What a deleted shared range left under the key pair of key set 0, in a pool range of a device to be made, which has that pair or another. -/
theorem witness_DevicesSealed :
    ∀ key ∈ [1, 2],
      let s : State := managed probe
      let s : State := { s with mgmt := { s.mgmt with left := [{ base := 2 ^ 47, len := 2 ^ 30, k1 := 0, k2 := 0 }] } }
      let d : VDev := { descr := BitVec.ofNat 1024 (2 ^ 857 + 2 ^ 705 + 2 ^ 730 + 2 ^ 592 * 2 ^ 31 + 2 ^ 528 * key + 2 ^ 192 * (2 ^ 32 + 2 ^ 33)) }
      (s.creation d == 0 && d.pools == [(2 ^ 47, 2 ^ 30)] && (s.mgmt.keysets.look (slice d.descr.toNat 528 16)).any (fun k =>
        (k.k1 == 0 && k.k2 == 0) == decide (key = 1))) = true := by decide +kernel

/-- Requests about virtual device 0, each with its ARGS. -/
theorem witness_VirtualDevicesManaged :
    (∀ p ∈ [(0x02, 0, []), (0x04, arg 16 (2 ^ 30), [(16, 8)]), (0x04, 0, [(16, 8)]), (0x06, arg 16 31 + arg 32 1, [(16, 1), (32, 16)]),
        (0x0B, arg 16 (2 ^ 30) + arg 24 4, [(16, 8), (24, 1)]), (0x0B, arg 24 12, [(16, 8), (24, 1)]), (0x10, 0, []), (0x11, arg 16 15, [(16, 1)]),
        (0x05, arg 16 65536 + arg 24 65536, [(16, 8), (24, 8)]), (0x05, 0, [(16, 8), (24, 8)]), (0x21, arg 24 128, [(16, 8), (24, 2)]),
        (0x22, arg 16 3 + arg 24 1, [(16, 8), (24, 1)])],
      (served (managed probe) (req p.1 p.2.1 []) p.1 ((managed probe).isOwner (req p.1 p.2.1 [])) p.2.2 &&
        ((managed probe).vds.look (reqVd (req p.1 p.2.1 []))).isSome) = true) ∧
    ((managed probe).vds.look 0).any (fun d => d.inSegments (2 ^ 30) 65536 && d.inSegments (2 ^ 30) (32768 * 17) && peerOk 1 &&
      d.queues.isEmpty && d.recBase == 0) = true ∧
    (∀ stage ∈ [1, 3], ((onVd (still 2 .collapsed) (fun d => { d with stage := stage })).vds.look 0).any (fun d => d.power == .collapsed && d.stage == stage) = true) ∧
    (served (managed (eclipsed .collapsed 4 .calibrating)) (req 0x10 0 []) 0x10 ((managed (eclipsed .collapsed 4 .calibrating)).isOwner (req 0x10 0 [])) [] &&
      ((managed (eclipsed .collapsed 4 .calibrating)).vds.look 0).any (fun d => (managed (eclipsed .collapsed 4 .calibrating)).eclipseHeld d)) = true ∧
    FMap.look [(3, [(1 : Byte), 2])] 3 = some [1, 2] ∧
    (∀ pz ∈ [[], [2 ^ 25]], let s : State := { onVd (managed probe) (fun d => { d with descr := BitVec.ofNat 1024 (2 ^ 592 * 2 ^ 31) }) with linePz := pz }
      (s.vds.look 0).any (fun d => slice d.descr.toNat 592 48 == 2 ^ 31 && s.linePoisoned (slice d.descr.toNat 592 48) 8 == !pz.isEmpty) = true) ∧
    (let s := stillReading (managed probe) 0
     s.ovls.any (fun l => l.vd == reqVd (req 0x05 0 []))) = true ∧
    (∀ n ∈ [none, some 7], let i : Inval := { id := 4, vd := 0, first := 0, len := 65536, req := req 0x05 0 [], ops := [], range := n }
     let s : State := { probe with
       mgmt := { probe.mgmt with invals := [i], shared := [(7, { base := 2 ^ 47, gib := 1, keyset := 0, grants := [(0, true)] })] }, walks := [{ id := 1, vd := 0, die := 0, va := 2 ^ 20, page := 16, log := 16 }] }
     s.mgmt.invals.find? (fun o => o.id == 4) = some i ∧ (∀ w ∈ s.walks, (w.page + 1) * 2 ^ w.log ≤ i.first ∨ i.first + i.len ≤ w.page * 2 ^ w.log) ∧ ∀ k ∈ i.ops, s.pending k = false) := by decide +kernel

/-- Queues made, deleted, resumed and reset, with work and without. -/
theorem witness_QueuesManaged :
    (let s := managed tabled
     let s : State := { s with mem := Memory.writeN s.mem (2 ^ 30 + 0x40000) (leBytes 64 (0x50000 + 2 ^ 256 * 4 + 2 ^ 320)) }
     let r := req 0x0A (arg 24 0x40000) []
     (served s r 0x0A (s.isOwner r) [(16, 1), (24, 8)] && s.ownPlace 0 0x40000 64 == some (2 ^ 30 + 0x40000) && (s.vds.look 0).any (fun d =>
       d.inSegments (2 ^ 30 + 0x40000) 64 && decide (d.wakeClass < 2)) && queueOk (leNat (Memory.readN s.mem (2 ^ 30 + 0x40000) 64)) &&
       !s.linePoisoned (2 ^ 30 + 0x40000) 64 && ({ s with linePz := [2 ^ 24 + 0x1000] } : State).linePoisoned (2 ^ 30 + 0x40000) 64) = true) ∧
    (let s : State := { managed (onVd (unworked 0 1) (fun d => { d with power := .collapsed, stage := 1, queues := d.queues.upd 0 (fun x => { x with
        line := 7 }) })) with wakeBits := [(7, (0, true))] }
     (served s (req 0x0A (arg 16 1) []) 0x0A (s.isOwner (req 0x0A (arg 16 1) [])) [(16, 1), (32, 2)] && !s.work 0 0 && (s.queue? 0 0).any (fun x =>
       x.line == 7 && s.wakeBits.look x.line == some (0, true)) && (s.vds.look 0).any (fun d => d.queues.length == 1 && d.power == .collapsed && d.stage == 1))
       = true) ∧
    (∀ sub ∈ [1, 2, 3], ∀ busy ∈ [false, true], ∀ st ∈ [0, 2],
      let s := managed (queued 0 1 (fun x => { x with status := st }))
      let s := if busy then s else onVd s (fun d => { d with launches := [] })
      (served s (req 0x0A (arg 16 sub) []) 0x0A (s.isOwner (req 0x0A (arg 16 sub) [])) [(16, 1), (32, 2)] && (s.queue? 0 0).any (fun x =>
        x.status == st && s.tail 0 x == some 1) && s.work 0 0 == busy) = true) ∧
    (let s : State := { managed (unworked 0 1) with linePz := [2 ^ 24 + 0x1000] }
     (served s (req 0x0A (arg 16 3) []) 0x0A (s.isOwner (req 0x0A (arg 16 3) [])) [(16, 1), (32, 2)] && (s.queue? 0 0).any (fun x =>
       (s.tail 0 x).isNone) && !s.work 0 0) = true) := by decide +kernel

/-- A container with the magic number and one without; a kernel's container, used and not. -/
theorem witness_ContainersManaged :
    (∀ m ∈ [0, 0x5A564C50], let s := managed tabled
      let s : State := { s with mem := Memory.writeN s.mem (2 ^ 30 + 0x100) (leBytes 64 m) }
      let r := req 0x08 (arg 16 0x100 + arg 24 64) []
      (served s r 0x08 (s.isOwner r) [(16, 8), (24, 4), (32, 8)] && (s.vds.look 0).isSome && !s.loadHeld r && (match (s.cpRead 0 0x100 64).1 with
        | .ok bs => bs.length == 64 && leNat (bs.take 4) == m && (sections bs).all (fun x => x.type != 4)
        | .error _ => false) && (match (({ s with linePz := [2 ^ 24 + 4] } : State).cpRead 0 0x100 64).1 with
        | .ok _ => false
        | .error c => c == 4)) = true) ∧
    (let s := managed (copying 0 0 0 0x3F [] (some .calibrating))
     s.loadHeld (req 0x08 (arg 16 (2 ^ 30) + arg 24 64) []) = true) ∧
    (∀ st ∈ [LaunchSt.running, .done], let s := managed (launched (fun l => { l with st := st }))
      (served s (req 0x09 0 []) 0x09 (s.isOwner (req 0x09 0 [])) [(16, 2)] && (s.vds.look 0).any (fun d => d.firstOf 0 == some 0 &&
        d.usesCont 0 == decide (st = .running))) = true) := by decide +kernel

/-- A container with one kernel, read whole; and a map of kernels in which no handle is free. -/
theorem witness_HandlesTaken :
    (let s := managed tabled
     let s : State := { s with mem := Memory.writeN s.mem (2 ^ 30 + 0x100) (leBytes 64 (0x5A564C50 + 2 ^ 96 + 2 ^ 128 * 32 + 2 ^ 256 * 3)) }
     (match (s.cpRead 0 0x100 64).1 with
      | .ok bs => ((sections bs).filter (fun x => x.type == 3)).length == 1
      | .error _ => false) = true) ∧
    (∀ (k : Kernel) (n h : Nat), h < n → FMap.look ((List.range n).map (fun i => (i, k))) h = some k) := by
  refine ⟨by decide +kernel, ?_⟩
  intro k n h lt
  have go : ∀ (l : List Nat), h ∈ l → FMap.look (l.map (fun i => (i, k))) h = some k := by
    intro l
    induction l with
    | nil => intro m; cases m
    | cons a l ih =>
      intro m
      by_cases e : h = a
      · simp [FMap.look, e]
      · simp only [List.map_cons, FMap.look, if_neg e]
        exact ih (by simpa [e] using m)
  exact go _ (List.mem_range.mpr lt)

/-- Shared ranges made, granted, revoked and removed. -/
theorem witness_RangesManaged :
    (let r := req 0x0C (arg 24 (2 ^ 47) + arg 32 1 + arg 36 1) []
     (!(managed probe).keyUsed (reqArg r 36 2) && (managed probe).keyUsed 0 && served (managed probe) r 0x0C ((managed probe).isOwner r) [(16, 1), (24, 8), (32, 4), (36, 2)] && (managed probe).mgmt.shared.isEmpty &&
       ((managed probe).mgmt.keysets.look 1).isSome && ((managed probe).vds.all (fun e => e.2.pools.isEmpty))) = true) ∧
    (∀ p ∈ [(1, arg 18 1, [(16, 1), (17, 1), (18, 1)]), (2, 0, [(16, 1), (17, 1)]), (3, 0, [(16, 1), (17, 1)])], ∀ g ∈ [[], [(0, true)]],
      let s := managed probe
      let s : State := { s with mgmt := { s.mgmt with shared := [(4, { base := 2 ^ 47, gib := 1, keyset := 0, grants := g })] } }
      let r := req 0x0C (arg 16 p.1 + arg 17 4 + p.2.1) []
      (served s r 0x0C (s.isOwner r) p.2.2 && (s.mgmt.shared.look (reqArg r 17 1)).any (fun x => x.grants == g && (s.mgmt.keysets.look x.keyset).isSome) && (s.vds.look (reqVd r)).isSome) = true) := by
  decide +kernel

/-- A virtual device is created under the lowest free number, and answered with it. -/
theorem test_creation_answers :
    after (exec (.createVirtualDevice (req 0x01 0 (leBytes 128 (2 ^ 857 + 2 ^ 705 + 2 ^ 730 + 2 ^ 592 * 2 ^ 31 + 2 ^ 528)))) (managed probe)) (fun t =>
      t.vds.length == 2 && t.mgmt.sent.all (fun m => bitsOf m.header.toNat 128 64 == 1)) = true := by decide +kernel

/-! ### Witnesses: the machine -/

/-- The words written out above are those of their instructions, which are well-formed. -/
theorem test_encode :
    ∀ p ∈ aluWords ++ fltWords ++ cvtWords ++ matWords ++ lanWords ++ spdWords ++ glbWords ++ synWords ++ dirWords ++ ctlWords ++ sysWords,
      (p.2.isWord && WellFormed p.2 && encode p.2 == some (BitVec.ofNat 96 p.1)) = true := by decide +kernel

/-- Integer, floating, conversion and lane words issue, and their beam stands afterwards. -/
theorem witness_RegisterFrames :
    ∀ p ∈ aluWords.take 5 ++ fltWords.take 3 ++ cvtWords.take 2 ++ lanWords.take 3, (meets probe p.2 (fun x => x.h.nas == .seq) &&
      after (exec p.2 probe) (fun t => (t.beam? 0 0).isSome)) = true := by decide +kernel

/-- Words of the other families issue with the selector seq and take no trap. -/
theorem witness_OtherFrames :
    ∀ l ∈ [matWords, spdWords, glbWords, synWords, dirWords, ctlWords], l.any (fun p => meets probe p.2 (fun x => x.h.nas == .seq && !x.lanes.isEmpty) &&
      after (exec p.2 probe) (fun t => (t.beam? 0 0).any (fun b => b.handler.isNone))) = true := by decide +kernel

/-- Where a team is found that may take a trap: with a handler, in one, and without. -/
theorem witness_TrapsEntered :
    (∀ s ∈ [withHandler probe, inHandler (withHandler probe) 0x10, probe], (s.beam? 0 0).any (fun b => b.resp.isNone && (s.teamOf 0 b).any (fun t =>
      (s.vds.look t.vd).any (fun d => (d.launches.look t.launch).any (fun l => l.teams.look t.index == some (.resident 0)) &&
        decide (d.errq.length < 256)))) = true) ∧
    ((withHandler probe).beam? 0 0).any (fun b => b.handler.isNone) = true ∧ ((withHandler probe).vds.look 0).any (fun d =>
      (d.overlays.look 255).isSome) = true ∧ (probe.vds.look 0).any (fun d => (d.overlays.look 255).isNone) = true ∧
    (∀ c ∈ [0x11, 0x12], ((inHandler probe c).beam? 0 0).any (fun b => b.handler.isSome) = true) ∧ probe.front.isSome = true := by decide +kernel

/-- A beam of 8 v registers whose v2 and v0 are empty. -/
def emptied (v : List Nat) : State := onBeam probe (fun b => { b with decl := { b.decl with vregs := 8 }, emptyV := v })

/-- An illegal register, rte, ctxsv and ctxld outside a handler; an empty destination, and an empty source with its wait bit and
without, under a guard that is true and one that is not; a launch marker in a floating operand; trap with threads and with none. -/
theorem witness_TrapsTaken :
    (∀ i ∈ [Instr.add (hd false (.v 9) (.v 0) (.v 1) .none 0) ⟨.i32, .rne, false, 0⟩, .rte (hd true .none .none .none .none 0),
        .ctxsv (hd true (.c 4) (.c 2) .none .none 0), .ctxld (hd true (.c 4) (.c 2) .none .none 0)],
      ((emptied []).front.any (fun f => match i.view with
        | some (op, h, ms) => (entryReason f.b.limits op h ms).isSome && f.b.handler.isNone
        | none => false)) = true) ∧
    (∀ v ∈ [[2], [0]], ∀ wa ∈ [false, true], ∀ none_ ∈ [false, true],
      let h : Head := { hd false (.v 2) (.v 0) (.v 1) .none 0 with wa := wa, gneg := none_ }
      let ms : Mods := (Instr.add h ⟨.i32, .rne, false, 0⟩).view.elim .none (·.2.2)
      ((emptied v).front.any (fun f => ((emptied v).vds.look f.t.vd).any (fun d => entryReason f.b.limits .add h ms == none &&
        (let x : Iss := { f := f, op := .add, h := h, ms := ms, e := Op.add.entry h ms, gm := f.b.guardMask f.p h, targets := [] }
         navFault d f.b.flow f.p h x.gm == none && (x.gm == 0) == none_ && x.dests.any f.b.anyEmpty == decide (v = [2]) &&
          (x.sources.filter (fun q => f.b.anyEmpty (f.b.names q.2.2.1 q.1))).map (fun q => (q.2.1, q.2.2.2)) == (if v = [0] then [(wa, 0)] else []))))) = true) ∧
    (let s := onBeam (setV (emptied []) 0 0x7FA00005) (fun b => { b with decl := { b.decl with noinit := false } })
     let h := hd false (.v 2) (.v 0) (.v 1) .none 0
     let ms : Mods := (Instr.fadd h ⟨.f32, .rne, false, 0⟩).view.elim .none (·.2.2)
     (s.front.any (fun f => (s.vds.look f.t.vd).any (fun d => entryReason f.b.limits .fadd h ms == none &&
       (let x : Iss := { f := f, op := .fadd, h := h, ms := ms, e := Op.fadd.entry h ms, gm := f.b.guardMask f.p h, targets := [] }
        navFault d f.b.flow f.p h x.gm == none && !x.dests.any f.b.anyEmpty && x.e.a.fp && decide (0 < x.e.a.span) && x.lanes.head? == some 0 &&
         (f.b.vreg 0 0).val.toNat / 2 ^ 8 == 0x7F_A000 && !f.b.decl.noinit)))) = true) ∧
    meets probe (.trap (hd true .none .imm .none .none 9)) (fun x => !x.lanes.isEmpty && x.h.a == .imm) = true ∧
    meets probe (.trap { hd true .none .imm .none .none 0 with gneg := true }) (fun x => x.lanes.isEmpty) = true := by decide +kernel

/-- Words, an issue without a word and an event, as the agenda may name them. -/
theorem witness_AgendaNames :
    (∀ i ∈ [Instr.nop (hd false .none .none .none .none 0), .illegalInstruction 1, .nonresidentOverlayIssue], Instr.issues i = true) ∧
    Instr.issues .powerUp = false := by decide +kernel

/-- Where errors are found: in the probe beam and its team, in lines that a device owns, that nothing owns and that grantees read, in a
slot that holds an overlay, in a directory. -/
theorem witness_PoisonFound :
    (probe.beam? 0 0).any (fun b => (probe.teamOf 0 b).isSome) = true ∧ ((probe.core 0).teamIn none).isSome = true ∧
    (∀ p ∈ [(2 ^ 24, some 0, [], []), (2 ^ 41, none, [], []), (2 ^ 41, none, [(0, ({ base := 2 ^ 47, gib := 1, keyset := 0, grants := [(0, true)] } : Shared))], [0])],
      let s : State := { probe with mgmt := { probe.mgmt with shared := p.2.2.1 } }
      ((s.vds.find? (fun e => e.2.owns e.1 (64 * p.1))).map (·.1) == p.2.1 && s.readersOf p.1 == p.2.2.2) = true) ∧
    (onCore probe (fun c => { c with slots := [(0, { overlay := some 0 })] })).ownerOfCore 0 = probe.ownerOfCore 0 ∧
    (probe.ownerOfCore 0).map (·.1) = some 0 := by decide +kernel

/-- A beam about to issue a word that decodes, one that is illegal, one of an overlay that is not there, and one that is being loaded. -/
theorem witness_StepRunsTheDecodedInstruction :
    ∀ p ∈ [(0x0003B800800007FF00800000, true, false), (0xB * 2 ^ 92, true, false), (0, false, false), (0, false, true)],
      let s := State.reset.withWord (BitVec.ofNat 96 p.1)
      let s := if p.2.1 then s else onCore s (fun c => { c with slots := if p.2.2 then [(0, { loading := some 0 })] else [] })
      (s.agenda == [.issue 0 0] && (s.beam? 0 0).any (fun b => b.sleep == .ready && b.pend.isNone && !b.fetch && b.drain.isEmpty &&
        (s.teamOf 0 b).any (fun t => !t.entry && (s.vds.look t.vd).any (fun d => d.power == .awake)) && b.flow.run.any (fun q =>
          (s.core 0).fetch q.pc == (if p.2.1 then some (BitVec.ofNat 96 p.1) else none) && !(s.core 0).staleAt q.pc &&
          ((s.core 0).loadingIn (ovlOf q.pc)).isSome == p.2.2 &&
          (illegalReason b.limits (BitVec.ofNat 96 p.1)).isSome == decide (p.1 = 0xB * 2 ^ 92))) && s.gov.isEmpty &&
        (s.core 0).turns 0 == [0]) = true := by
  decide +kernel

/-- Two beams of a quadrant of which the first can issue where the second is named. -/
theorem witness_TurnsAreKept :
    let s : State := (onCore (State.reset.withWord (BitVec.ofNat 96 0x0003B800800007FF00800000)) (fun c => { c with
      beams := c.beams.flatMap (fun e => [e, (1, { e.2 with idx := 4 })]) }))
    let s : State := { s with agenda := [.issue 0 1] }
    (((s.core 0).turns 0).takeWhile (fun k => k != 1) == [0] && ({ s with agenda := [] }.progress ({ s with agenda := [] }.issueAt 0 0)).isSome) = true := by
  decide +kernel

/-- Rounds whose first move is a beam's and an event's. -/
theorem witness_RoundsMove :
    (let s : State := { State.reset.withWord (BitVec.ofNat 96 0x0003B800800007FF00800000) with agenda := [], round := [.issue 0 0] }
     (s.progress (s.act (.issue 0 0))).isSome = true) ∧
    (let s : State := { arriving probe 0 [] with agenda := [], round := [.event (.arrivalCounterIncrement 4), .issue 0 0] }
     s.events.contains (.arrivalCounterIncrement 4) && (s.progress (s.act (.event (.arrivalCounterIncrement 4)))).isSome) = true := by decide +kernel

/-- A step of a state that meets the invariants answers a next state. -/
theorem witness_Invariants :
    (Memory.wf tabled.mem && tabled.vds.all (fun e => decide (e.2.errq.length ≤ 256) && decide (e.1 < 64)) && after (step tabled) (fun _ => true)) =
      true := by decide +kernel

/-- A word of an unassigned group decodes to nothing. -/
theorem witness_WordsDecode : 0xB ≤ (BitVec.ofNat 96 (0xB * 2 ^ 92)).toNat / 2 ^ 92 := by decide +kernel

/-- The word placed at the fetch of the first step after reset runs: v2 becomes v0 + v1, and the next index is 1. -/
theorem test_first_step :
    after (step (State.reset.withFetchWord 96 0x0003B800800007FF00800000)) (fun t => (t.beam? 0 0).any (fun b =>
      b.flow.run.any (fun p => p.pc == 1))) = true := by decide +kernel

/-! ### Witnesses: paths -/

/-- A running path. -/
def runs (mask pc : Word) (top : Option Nat) : Path := { mask := mask, pc := pc, fmt := 0x6B540000, part := 0x20, top := top, st := .running }

/-- A joinat entry at an address, and a call entry, of 32 threads. -/
def joinEntry (addr : Word) (parent : Option Nat) : StackEntry :=
  { call := false, mask := BitVec.allOnes 32, addr := addr, fmt := 0x6B540000, part := 0x20, parent := parent }

/-- A flow of some paths and entries. -/
def flowOf (st : FMap StackEntry) (ps : List Path) : Flow := { paths := ps, stack := st, ages := 3, exited := 0 }

/-- The words of the selectors, with an immediate. -/
def selector (n : Nas) (imm : Nat) : Head := { hd false .none .none .none .none (BitVec.ofNat 20 imm) with nas := n }

/-- A flow of one path; one with a suspended path beside it; one whose path stands before its joinat entry, at which the others are
parked, or from which one is suspended; one in a call. -/
def flows : List (Flow × Path) :=
  [(flowOf [] [runs 0xFF 4 none], runs 0xFF 4 none),
   (flowOf [] [runs 0xFF 4 none, { runs 0xF00 9 none with st := .suspended 2 }], runs 0xFF 4 none),
   (flowOf [(0, joinEntry 5 none)] [runs 0xFF 4 (some 0), { runs 0xF00 5 (some 0) with st := .parked }], runs 0xFF 4 (some 0)),
   (flowOf [(0, joinEntry 5 none)] [runs 0xFF 4 (some 0), { runs 0xF00 9 (some 0) with st := .suspended 2 }], runs 0xFF 4 (some 0)),
   (flowOf [(0, { joinEntry 7 none with call := true })] [runs 0xFF 4 (some 0)], runs 0xFF 4 (some 0))]

theorem witness_QuietFlows : ∀ f ∈ flows, f.1.Quiet f.2 := by unfold Flow.Quiet Flow.Under Path.AtEntry; decide +kernel

/-- Guard-true threads of the whole path, of a part of it and of none; jumps ahead, back and to the next index, of the whole path and of a
part; calls with a free entry; returns; a jump to one target and to several. -/
theorem witness_PathsMove :
    (∀ f ∈ flows, ∀ gm ∈ [(0 : Nat), 0xFF, 0x0F], BitVec.ofNat 32 gm &&& ~~~f.2.mask = 0) ∧
    (∀ f ∈ flows.take 2, f.1.parksHere { f.2 with mask := 0xF0, pc := 5 } = false ∧ f.1.parksHere { f.2 with mask := 0x0F, pc := 3 } = false ∧
      f.1.stack.free f.1.room = some 0) ∧
    (flowOf [(0, { joinEntry 7 none with call := true })] [runs 0xFF 4 (some 0)]).callEntry (some 0) = some 0 ∧
    ((flowOf [(0, { joinEntry 7 none with call := true })] [runs 0xFF 4 (some 0)]).parksHere { runs 0xFF 5 (some 0) with mask := 0xF0 }) = false ∧
    (flowOf [(0, joinEntry 5 none)] [runs 0xFF 4 (some 0), { runs 0xF00 5 (some 0) with st := .parked }]).parksHere (runs 0xFF 5 (some 0)) = true ∧
    jixGroups [(0, 4, 9), (1, 2, 9)] = [(2, 9, 3)] ∧ 2 ≤ (jixGroups [(0, 4, 9), (1, 2, 8)]).length ∧
    ((selector .jmp 0xFFFFF).imm.toInt = -1 ∧ (selector .jmp 1).imm.toInt = 1) := by decide +kernel

/-- A pending selector of an awake beam; a word that sends, writes, sleeps. -/
theorem witness_SelectorsWait :
    ((onBeam probe (fun b => { b with pend := some { head := hd false .none .none .none .none 0, gm := 1 } })).beam? 0 0).any (fun b =>
      b.sleep == .ready && b.pend.isSome) = true ∧
    (∀ i ∈ [Instr.add (hd false (.v 2) (.v 0) (.v 1) .none 0) ⟨.i32, .rne, false, 0⟩, .mov (hd true (.c 2) (.c 5) .none .none 0) ⟨.i32, .rne, false, 0⟩,
        .cmp (hd false (.p 0) (.v 0) (.v 1) .none 0) ⟨.i32, .rne, false, 2⟩, .cmp (hd true (.q 0) (.c 2) (.c 3) .none 0) ⟨.i32, .rne, false, 2⟩],
      meets probe i (fun x => decide (x.h.nas ≠ .exit) && !x.lanes.isEmpty) = true) := by decide +kernel

/-! ### Witnesses: selectors that fault -/

/-- A selector on a nop at an index, under a guard. -/
def nopOf (n : Nas) (imm : Nat) (neg : Bool) : Instr := .nop { selector n imm with gneg := neg, c := if n = .jix then .v 4 else .none }

/-- The probe at the code address of an index of overlay 0. -/
def atIndex (n : Nat) : State := onBeam probe (fun b => { b with flow := b.flow.setRun (fun p => { p with pc := BitVec.ofNat 32 n }) })

/-- Jumps and calls beyond the indices, a selector with threads that go on past the last index, a jump through no table, a return from no
call, a call with a full stack; and each of them where nothing is wrong. -/
theorem witness_SelectorFaults :
    (∀ p ∈ [(nopOf .jmp 0xFFFFF false, 0, 0x11), (nopOf .call 5461 false, 0, 0x11), (nopOf .seq 0 false, 5460, 0x11), (nopOf .jix 3 false, 0, 0x13),
        (nopOf .ret 0 false, 0, 0x16)],
      ((atIndex p.2.1).front.any (fun f => match p.1.view with
        | some (op, h, ms) => entryReason f.b.limits op h ms == none &&
          ((probe.vds.look 0).any (fun d => (navFault d f.b.flow f.p h (f.b.guardMask f.p h)).any (fun r => r == p.2.2)))
        | none => false)) = true) ∧
    ((onBeam probe (fun b => { b with flow := { b.flow with room := 0 } })).front.any (fun f =>
      (f.b.flow.stack.free f.b.flow.room).isNone && (probe.vds.look 0).any (fun d =>
        navFault d f.b.flow f.p (selector .call 4) (f.b.guardMask f.p (selector .call 4)) == some 0x17))) = true := by decide +kernel

/-- The probe's front as an indexed jump through table 3 by v4. -/
def jixIss (s : State) : Option Iss :=
  s.front.map (fun f => { f := f, op := .nop, h := { selector .jix 3 with c := .v 4 }, ms := .none, e := Op.nop.entry (selector .jix 3) .none
                          gm := f.b.guardMask f.p (selector .jix 3), targets := [] })

/-- The gate of an indexed jump: beyond its table; to an overlay that is absent, or loads; without a landing pad, with one, and where none is
asked for. -/
theorem witness_IndexedJumps :
    let slot (w : Nat) : FMap Slot := [(0, { overlay := some 0, words := [BitVec.ofNat 96 w] })]
    let pad := (encode (.lpad (hd true .none .imm .none .none 3))).elim 0 BitVec.toNat
    ∀ p ∈ [(9, ([] : FMap Slot), true, 0x12), (0, [], true, 0x14), (0, [(0, { loading := some 0 })], true, 1), (0, slot 0, true, 0x15), (0, slot pad, true, 0), (0, slot 0, false, 0)],
      let s := onCore (onVd (setV probe 4 (BitVec.ofNat 32 p.1)) (fun d => { d with
        jtabs := [(3, { cont := 0, entries := [0, 0] })], descr := if p.2.2.1 then d.descr ||| (1#1024 <<< 583) else d.descr })) (fun c => { c with slots := p.2.1 })
      (jixIss s).any (fun x => (s.vds.look 0).any (fun d => d.strict == p.2.2.1 && x.h.nas == .jix && (d.jtabs.look (x.h.imm.toNat % 2 ^ 10)).isSome &&
        !x.h.uni && x.lanes.length == 32 && (match x.jixGate d (s.core 0) with
          | .trap t => t.reason == p.2.2.2
          | .hold => p.2.2.2 == 1
          | .go _ => p.2.2.2 == 0))) = true := by decide +kernel

end Sys2Proof.Machine.Tests
end

section
/-!
SUPPORT. What every operation of the model does to memory. Most leave it alone, which is said as an equation; those that
write it are said to keep its canonical form. Both are `simp` lemmas, in the order of the model's definitions.
-/
namespace Sys2Proof.Machine

/-! ### Folds, choices and pairs -/

/-- A fold whose every step leaves memory alone leaves it alone. -/
@[simp] theorem State.foldl_mem {β : Type} {f : State → β → State} (h : ∀ s x, (f s x).mem = s.mem) (l : List β) (s : State) :
    (l.foldl f s).mem = s.mem :=
  foldl_keeps State.mem f h l s

/-- The same of a fold that carries a value beside the state. -/
@[simp] theorem foldl_snd_mem {α β : Type} {f : α × State → β → α × State} (h : ∀ a x, (f a x).2.mem = a.2.mem) (l : List β)
    (a : α × State) :
    (l.foldl f a).2.mem = a.2.mem :=
  foldl_keeps (fun a : α × State => a.2.mem) f h l a

/-- A fold whose every step keeps memory canonical keeps it canonical. -/
@[simp] theorem State.foldl_memoryOk {β : Type} {f : State → β → State} (h : ∀ s x, s.MemoryOk → (f s x).MemoryOk) (l : List β)
    {s : State} (hs : s.MemoryOk) :
    (l.foldl f s).MemoryOk :=
  List.foldlRecOn (motive := State.MemoryOk) l f hs (fun t ht x _ => h t x ht)

/-- The same of a fold that carries a value beside the state. -/
theorem foldl_snd_memoryOk {α β : Type} {f : α × State → β → α × State} (h : ∀ a x, a.2.MemoryOk → (f a x).2.MemoryOk)
    (l : List β) {a : α × State} (ha : a.2.MemoryOk) :
    (l.foldl f a).2.MemoryOk :=
  List.foldlRecOn (motive := fun a : α × State => a.2.MemoryOk) l f ha (fun b hb x _ => h b x hb)

@[simp] theorem State.ite_memoryOk {c : Prop} [Decidable c] {s t : State} (hs : s.MemoryOk) (ht : t.MemoryOk) :
    (if c then s else t).MemoryOk := by
  split
  · exact hs
  · exact ht

/-- The memory of a pair's state, where the pair has been taken apart. -/
theorem mem_of_snd {α : Type} {p : α × State} {a : α} {t : State} (h : p = (a, t)) : t.mem = p.2.mem := by rw [h]

theorem memoryOk_of_snd {α : Type} {p : α × State} {a : α} {t : State} (h : p = (a, t)) (hp : p.2.MemoryOk) : t.MemoryOk := by
  rw [h] at hp; exact hp

section Frames

variable (s : State)

/-! ### Memory left alone -/

/-! `Ops` -/

@[simp] theorem State.resettle_mem (core : Nat) : (s.resettle core).mem = s.mem := by
  simp [State.resettle]

/-! `Operands` -/

@[simp] theorem State.meets_mem (x : Iss) (poison : Bool) : (s.meets x poison).mem = s.mem := by
  unfold State.meets
  split <;> simp

/-! `Scratch` -/

@[simp] theorem State.noteLine_mem (v line sub : Nat) : (s.noteLine v line sub).mem = s.mem := rfl

@[simp] theorem State.foldl_noteLine_mem (vs : List Nat) (line sub : Nat) :
    (vs.foldl (fun s v => s.noteLine v line sub) s).mem = s.mem :=
    State.foldl_mem (fun _ _ => by rfl) vs s

/-! `Spad` -/

@[simp] theorem State.passSpad_mem (x : Iss) (n : Nat) : (s.passSpad x n).mem = s.mem := rfl

@[simp] theorem State.keepSpad_mem (core slot thread gran : Nat) : (s.keepSpad core slot thread gran).mem = s.mem := by
  unfold State.keepSpad
  split <;> simp

/-! `Trans` -/

@[simp] theorem State.keepCore_mem (core : Nat) (t : Trans) : (s.keepCore core t).mem = s.mem := rfl

@[simp] theorem State.keepDie_mem (die : Nat) (t : Trans) : (s.keepDie die t).mem = s.mem := rfl

@[simp] theorem State.lookup_mem (core v va : Nat) : (s.lookup core v va).2.mem = s.mem := by
  unfold State.lookup
  repeat' split
  all_goals simp

@[simp] theorem State.resolveHeld_mem (core v va n : Nat) (need : Rights) (missed : List Nat) :
    (s.resolveHeld core v va n need missed).2.mem = s.mem := by
  unfold State.resolveHeld
  split
  · rfl
  · split <;> rename_i heq <;> simp [mem_of_snd heq]

@[simp] theorem State.wantWalk_mem (core v va : Nat) (beams : List (BeamRef × Nat)) :
    (s.wantWalk core v va beams).mem = s.mem := by
  unfold State.wantWalk
  dsimp only
  repeat' split
  all_goals simp

/-! `Global` -/

@[simp] theorem State.sendG_mem (x : Iss) (kind : GKind) (n : Nat) (lanes : List LaneAcc) (ord : Ordr) (scope : Scope) :
    (s.sendG x kind n lanes ord scope).mem = s.mem := by
  unfold State.sendG
  dsimp only
  repeat' split
  all_goals simp

@[simp] theorem State.poisonOut_mem (x : Iss) (n : Nat) (is : List Nat) : (s.poisonOut x n is).2.mem = s.mem := by
  induction is generalizing s with
  | nil => rfl
  | cons i is ih =>
    unfold State.poisonOut
    dsimp only
    split
    · exact ih s
    · split <;> rename_i heq
      · simp [mem_of_snd heq]
      · split <;> simp [mem_of_snd heq, ih]

@[simp] theorem State.passOlder_mem (g : GOp) : (s.passOlder g).mem = s.mem := rfl

@[simp] theorem State.keepOlder_mem (core slot thread gran : Nat) : (s.keepOlder core slot thread gran).mem = s.mem := rfl

@[simp] theorem State.noteNarrow_mem (g : GOp) : (s.noteNarrow g).mem = s.mem := by
  simp [State.noteNarrow]

@[simp] theorem State.updG_mem (id : Nat) (f : GOp → GOp) : (s.updG id f).mem = s.mem := rfl

@[simp] theorem State.settleG_mem (id : Nat) : (s.settleG id).mem = s.mem := by
  unfold State.settleG
  dsimp only
  repeat' split
  all_goals simp

@[simp] theorem State.readPoison_mem (g : GOp) (got : List (Nat × DWord × Bool)) : (s.readPoison g got).mem = s.mem := by
  unfold State.readPoison
  split <;> simp

@[simp] theorem State.number_mem (kind : CopyKind) (rows : List Row) : (s.number kind rows).2.mem = s.mem := rfl

@[simp] theorem State.warm_mem (core v : Nat) (rows : List Row) : (s.warm core v rows).mem = s.mem := by
  simp [State.warm]

@[simp] theorem State.arrivalWord_mem (x : Iss) : (s.arrivalWord x).2.mem = s.mem := by
  unfold State.arrivalWord
  dsimp only
  split
  · rfl
  split
  · rfl
  split <;> rename_i heq
  case h_3 => split <;> rename_i heq' <;> simp [mem_of_snd heq, mem_of_snd heq']
  all_goals simp [mem_of_snd heq]

@[simp] theorem State.raise_mem (core k : Nat) (amount : Word) : (s.raise core k amount).mem = s.mem := rfl

@[simp] theorem State.arriveAt_mem (vd core k : Nat) (amount : Word) (tag : BitVec 16) :
    (s.arriveAt vd core k amount tag).mem = s.mem := by
  unfold State.arriveAt
  repeat' split
  all_goals simp

@[simp] theorem State.deliverOrDrop_mem (vd : Nat) (r : BeamRef) (ns : Names) (o : RegOut) :
    (s.deliverOrDrop vd r ns o).mem = s.mem := by
  unfold State.deliverOrDrop
  split <;> simp

@[simp] theorem State.missPage_mem (e : BeamRef × Nat) : (s.missPage e).mem = s.mem := by
  unfold State.missPage
  split <;> simp

@[simp] theorem State.readDone_mem (c : Copy) : (s.readDone c).mem = s.mem := by
  unfold State.readDone
  split <;> simp

/-! `Sync` -/

@[simp] theorem State.fenced_mem (x : Iss) (m : ModF) : (s.fenced x m).mem = s.mem := rfl

@[simp] theorem State.raiseSaved_mem (a : Arrival) : (s.raiseSaved a).mem = s.mem := rfl

@[simp] theorem State.updNode_mem (v g n : Nat) (f : Node → Node) : (s.updNode v g n f).mem = s.mem := rfl

/-! `Census` -/

@[simp] theorem State.setEntry_mem (core i : Nat) (e : DirEntry) : (s.setEntry core i e).mem = s.mem := rfl

@[simp] theorem State.updCensus_mem (v slot : Nat) (f : Census → Census) : (s.updCensus v slot f).mem = s.mem := rfl

@[simp] theorem State.spawnResp_mem (v slot core i batch : Nat) (credit : Bool) :
    (s.spawnResp v slot core i batch credit).mem = s.mem :=
    rfl

@[simp] theorem State.testInstall_mem (v core i : Nat) (move : Bool) : (s.testInstall v core i move).2.mem = s.mem := by
  unfold State.testInstall
  split
  · rfl
  · refine foldl_snd_mem (fun a slot => ?_) _ _
    dsimp only
    repeat' split
    all_goals simp

@[simp] theorem State.placeResp_mem (core slot cslot : Nat) (c : Census) (rs : List Resp) :
    (s.placeResp core slot cslot c rs).mem = s.mem :=
  rfl

@[simp] theorem State.updResp_mem (v slot id : Nat) (f : Resp → Resp) : (s.updResp v slot id f).mem = s.mem := rfl

@[simp] theorem State.respondAll_mem (x : Iss) (is : List Nat) : (s.respondAll x is).1.mem = s.mem := by
  induction is generalizing s with
  | nil => rfl
  | cons i is ih =>
    unfold State.respondAll
    split
    · rfl
    · simp [ih]

@[simp] theorem State.dropLane_mem (core slot lane : Nat) : (s.dropLane core slot lane).mem = s.mem := by
  unfold State.dropLane
  dsimp only
  repeat' split
  all_goals simp

@[simp] theorem State.clearAnswered_mem (v : Nat) (cores : List Nat) (slot : Nat) : (s.clearAnswered v cores slot).mem = s.mem :=
  rfl

@[simp] theorem State.endCensus_mem (v slot : Nat) (c : Census) : (s.endCensus v slot c).mem = s.mem := by
  simp [State.endCensus]

@[simp] theorem State.putOne_mem (x : Iss) (i : Nat) : (s.putOne x i).2.mem = s.mem := by
  unfold State.putOne
  split <;> simp

theorem Iss.serve_mem (x : Iss) {f : State → Nat → Nat × State} (hf : ∀ s i, (f s i).2.mem = s.mem) (s : State) :
    (x.serve f s).2.mem = s.mem := by
  unfold Iss.serve
  exact foldl_snd_mem (fun a i => by exact hf a.2 i) _ _

@[simp] theorem State.delOne_mem (x : Iss) (i : Nat) : (s.delOne x i).2.mem = s.mem := by
  unfold State.delOne
  dsimp only
  repeat' split
  all_goals simp

@[simp] theorem State.moveOne_mem (x : Iss) (d : VDev) (fill i : Nat) : (s.moveOne x d fill i).2.mem = s.mem := by
  unfold State.moveOne
  dsimp only
  repeat' split
  all_goals simp

@[simp] theorem State.updMove_mem (id : Nat) (f : Move → Move) : (s.updMove id f).mem = s.mem := rfl

@[simp] theorem State.endMove_mem (m : Move) (code : Nat) : (s.endMove m code).mem = s.mem := by
  unfold State.endMove
  dsimp only
  repeat' split
  all_goals simp

/-! `Control` -/

@[simp] theorem State.imagePlace_mem (l : OvlLoad) (va n : Nat) : (s.imagePlace l va n).2.mem = s.mem := by
  unfold State.imagePlace
  split <;> simp

@[simp] theorem State.fetched_mem (l : OvlLoad) (code : Nat) : (s.fetched l code).mem = s.mem := by
  unfold State.fetched
  repeat' split
  all_goals simp

/-- A load that starts leaves memory alone, for a team's entry overlay too. -/
@[simp] theorem State.startLoad_entry_mem (c k v o : Nat) (r : Option BeamRef) (ns : Names) (b : Bool) (team : Option (BitVec 16))
    (launch : Option Nat) :
    (s.startLoad c k v o r ns b team launch).mem = s.mem :=
  rfl

@[simp] theorem State.enter_mem (v n core : Nat) (failed : Bool) : (s.enter v n core failed).mem = s.mem := rfl

@[simp] theorem State.endLoad_mem (l : OvlLoad) (slot : Slot) (code : Nat) : (s.endLoad l slot code).mem = s.mem := by
  unfold State.endLoad
  dsimp only
  repeat' split
  all_goals simp

@[simp] theorem State.loadWalks_mem (l : OvlLoad) (va : Nat) : (s.loadWalks l va).mem = s.mem := by
  simp [State.loadWalks]

@[simp] theorem State.countImage_mem (l : OvlLoad) (code : Nat) : (s.countImage l code).mem = s.mem := by
  unfold State.countImage
  repeat' split
  all_goals simp

/-! `Matrix` -/

@[simp] theorem State.sampling_mem (x : Iss) : (s.sampling x).1.mem = s.mem := by
  unfold State.sampling
  split <;> simp

/-! `System` -/

@[simp] theorem State.cycles_mem (core : Nat) : (s.cycles core).2.mem = s.mem := rfl

@[simp] theorem State.blockPlaces_mem (x : Iss) (va n : Nat) (need : Rights) : (s.blockPlaces x va n need).2.mem = s.mem := by
  refine foldl_snd_mem (fun a k => ?_) _ _
  split
  · dsimp only
    split <;> rename_i heq
    case h_3 => split <;> simp [mem_of_snd heq]
    all_goals simp [mem_of_snd heq]
  · rfl

@[simp] theorem State.gather_mem (core : Nat) : (s.gather core).mem = s.mem := by
  unfold State.gather
  dsimp only
  split
  · refine State.foldl_mem (fun s k => ?_) _ s
    rw [State.returnFrom_mem]
    split <;> simp
  · rfl

@[simp] theorem State.killResponder_mem (core slot : Nat) (t : Team) : (s.killResponder core slot t).mem = s.mem := by
  simp [State.killResponder]

@[simp] theorem State.kill_mem (x : Iss) (all : Bool) : (s.kill x all).mem = s.mem := by
  unfold State.kill
  repeat' split
  all_goals simp

/-! `Preempt` -/

@[simp] theorem State.setTeamSt_mem (v l i : Nat) (st : TeamSt) : (s.setTeamSt v l i st).mem = s.mem := rfl

@[simp] theorem State.unplace_mem (v l i : Nat) : (s.unplace v l i).mem = s.mem := rfl

@[simp] theorem State.discardTeam_mem (core : Nat) : (s.discardTeam core).mem = s.mem := by
  unfold State.discardTeam
  split <;> simp

@[simp] theorem State.saveTeam_mem (core : Nat) : (s.saveTeam core).mem = s.mem := by
  unfold State.saveTeam
  split <;> simp

@[simp] theorem State.chargeOut_mem (t : Team) : (s.chargeOut t).mem = s.mem := by
  unfold State.chargeOut
  split <;> simp

@[simp] theorem State.preempt_mem (core : Nat) : (s.preempt core).mem = s.mem := by
  unfold State.preempt
  repeat' split
  all_goals simp

@[simp] theorem State.preemptAt_mem (core slot : Nat) (p : PrismOut) : (s.preemptAt core slot p).mem = s.mem := by
  unfold State.preemptAt
  repeat' split
  all_goals simp

/-! `Fill` -/

@[simp] theorem State.endFill_mem (f : Fill) : (s.endFill f).mem = s.mem := by
  unfold State.endFill
  split <;> simp

@[simp] theorem State.deliverFill_mem (f : Fill) : (s.deliverFill f).mem = s.mem := by
  unfold State.deliverFill
  split <;> simp

@[simp] theorem State.noteRetry_mem (core : Nat) (p : PrismOut) : (s.noteRetry core p).mem = s.mem := rfl

@[simp] theorem State.wakePrism_mem (r : BeamRef) (p : PrismOut) : (s.wakePrism r p).mem = s.mem := by
  unfold State.wakePrism
  repeat' split
  all_goals simp

@[simp] theorem State.abandonPrism_mem (f : Fill) (p : PrismOut) : (s.abandonPrism f p).mem = s.mem := by
  unfold State.abandonPrism
  dsimp only
  repeat' split
  all_goals simp

/-! `Launch` -/

@[simp] theorem State.workDone_mem (v q : Nat) : (s.workDone v q).mem = s.mem := rfl

@[simp] theorem State.keepRecord_mem (v : Nat) (bytes : Nat → List Byte) : (s.keepRecord v bytes).mem = s.mem := rfl

@[simp] theorem State.launchRecord_mem (v : Nat) (l : Launch) (code : Nat) : (s.launchRecord v l code).mem = s.mem := rfl

@[simp] theorem State.newLaunch_mem (v q : Nat) (packet : BitVec 512) (node : Option (Nat × Nat)) (bin : Bool) (dline : Nat) :
    (s.newLaunch v q packet node bin dline).2.mem = s.mem := by
  unfold State.newLaunch
  split <;> simp

@[simp] theorem State.overflowSpawn_mem (core slot lane : Nat) : (s.overflowSpawn core slot lane).mem = s.mem := by
  unfold State.overflowSpawn
  split <;> simp

@[simp] theorem State.queueNode_mem (v g n q : Nat) (nd : Node) : (s.queueNode v g n q nd).2.mem = s.mem := by
  simp [State.queueNode]

@[simp] theorem State.queueNodes_mem (v : Nat) (d : VDev) (queue : Nat) : (s.queueNodes v d queue).mem = s.mem := by
  simp [State.queueNodes]

/-! `Queue` -/

@[simp] theorem State.updThread_mem (t : Nat) (f : Thread → Thread) : (s.updThread t f).mem = s.mem := rfl

@[simp] theorem State.block_mem (v q : Nat) (b : Blocked) : (s.block v q b).mem = s.mem := rfl

@[simp] theorem State.consume_mem (v q : Nat) : (s.consume v q).mem = s.mem := rfl

/-! `Sched` -/

@[simp] theorem State.govern_mem (v n i : Nat) (l : Launch) (cores : List Nat) (die : Nat) :
    (s.govern v n i l cores die).mem = s.mem :=
  rfl

@[simp] theorem State.seat_mem (core idx : Nat) (mk : BitVec 16 → Beam) : (s.seat core idx mk).2.mem = s.mem := rfl

@[simp] theorem State.seatTeam_mem (core : Nat) (t : Team) (counters : FMap Word) : (s.seatTeam core t counters).mem = s.mem :=
  rfl

@[simp] theorem State.placeFresh_mem (v n core i : Nat) (l : Launch) (k : Kernel) (area : Option Nat) :
    (s.placeFresh v n core i l k area).mem = s.mem :=
  State.foldl_mem (fun _ _ => by rfl) _ _

@[simp] theorem State.placeSaved_mem (n core : Nat) (l : Launch) (k : Kernel) (x : SavedTeam) :
    (s.placeSaved n core l k x).mem = s.mem := by
  unfold State.placeSaved
  dsimp only
  rw [State.foldl_mem (fun s e => by simp), foldl_snd_mem (fun a e => by simp)]
  simp

@[simp] theorem State.enterAt_mem (v n core : Nat) (k : Kernel) : (s.enterAt v n core k).mem = s.mem := by
  unfold State.enterAt
  split <;> simp

@[simp] theorem State.placeOne_mem (v n core i : Nat) (d : VDev) (k : Kernel) : (s.placeOne v n core i d k).mem = s.mem := by
  unfold State.placeOne
  repeat' split
  all_goals simp

@[simp] theorem State.placeUnit_mem (v n core i : Nat) (d : VDev) (l : Launch) (k : Kernel) :
    (s.placeUnit v n core i d l k).mem = s.mem := by
  simp [State.placeUnit]

@[simp] theorem State.switchOut_mem (core : Nat) : (s.switchOut core).mem = s.mem := by
  unfold State.switchOut
  split <;> simp

/-! `Power` -/

@[simp] theorem State.dropTranslations_mem (v : Nat) : (s.dropTranslations v).mem = s.mem := rfl

@[simp] theorem State.loadDirs_mem (d : VDev) : (s.loadDirs d).mem = s.mem := State.foldl_mem (fun _ _ => by rfl) _ s

@[simp] theorem State.passEntries_mem (cores : List Nat) (es : List DirEntry) : (s.passEntries cores es).2.mem = s.mem := by
  refine foldl_snd_mem (fun a e => ?_) es _
  split <;> simp

@[simp] theorem State.freshCore_mem (core : Nat) : (s.freshCore core).mem = s.mem := by
  unfold State.freshCore
  split <;> simp

@[simp] theorem State.noteRetired_mem (core sub count : Nat) : (s.noteRetired core sub count).mem = s.mem := by
  unfold State.noteRetired
  split <;> simp

@[simp] theorem State.noCluster_mem (v : Nat) : (s.noCluster v).mem = s.mem := by
  unfold State.noCluster
  repeat' split
  all_goals simp

/-! `Ports` -/

@[simp] theorem State.setPort_mem (key : Nat) (st : PortSt) : (s.setPort key st).mem = s.mem := rfl

@[simp] theorem State.notePort_mem (type key : Nat) : (s.notePort type key).mem = s.mem :=
  State.foldl_mem (fun _ _ => by rfl) _ s

@[simp] theorem State.noteRefused_mem (v count : Nat) : (s.noteRefused v count).mem = s.mem := by
  unfold State.noteRefused
  split <;> simp

@[simp] theorem State.updAssoc_mem (a : Nat) (f : Assoc → Assoc) : (s.updAssoc a f).mem = s.mem := rfl

/-! `Manage` -/

@[simp] theorem State.reply_mem (r : MReq) (p : Reply) : (s.reply r p).mem = s.mem := rfl

@[simp] theorem State.draw_mem : (s.draw).2.mem = s.mem := rfl

@[simp] theorem State.openElection_mem : (s.openElection).mem = s.mem := rfl

@[simp] theorem State.lapse_mem : (s.lapse).mem = s.mem := rfl

/-! `Vdevs` -/

@[simp] theorem State.dropFlight_mem (v : Nat) (d : VDev) : (s.dropFlight v d).mem = s.mem := rfl

@[simp] theorem State.forget_mem (v key : Nat) : (s.forget v key).mem = s.mem := State.foldl_mem (fun _ _ => by rfl) _ _

@[simp] theorem State.dropRange_mem (v first len : Nat) : (s.dropRange v first len).mem = s.mem := rfl

@[simp] theorem State.startInval_mem (r : MReq) (first len : Nat) (range : Option Nat) :
    (s.startInval r first len range).mem = s.mem :=
  rfl

@[simp] theorem State.dropGrant_mem (v : Nat) (i : Option Nat) : (s.dropGrant v i).mem = s.mem := by
  unfold State.dropGrant
  split <;> simp

/-! `Loader` -/

@[simp] theorem State.holdRequest_mem (req : MReq) (held : Bool) : (s.holdRequest req held).mem = s.mem := rfl

@[simp] theorem State.request_mem (r : MReq) : (s.request r).mem = s.mem := by
  unfold State.request
  split <;> simp

@[simp] theorem State.holdPacket_mem (pkt : Packet) (held : Bool) : (s.holdPacket pkt held).mem = s.mem := rfl

/-! `Poison` -/

@[simp] theorem State.noteEvent_mem (v sub lane launch core addr : Nat) : (s.noteEvent v sub lane launch core addr).mem = s.mem :=
  rfl

@[simp] theorem State.beamEvent_mem (core slot lane : Nat) (f : Beam → Beam) : (s.beamEvent core slot lane f).mem = s.mem := by
  unfold State.beamEvent
  repeat' split
  all_goals simp

@[simp] theorem State.foundBy_mem (core : Nat) (slot : Option Nat) : (s.foundBy core slot).mem = s.mem := by
  unfold State.foundBy
  split <;> simp

@[simp] theorem State.storeEvent_mem (core slot index : Nat) : (s.storeEvent core slot index).mem = s.mem := by
  unfold State.storeEvent
  dsimp only
  repeat' split
  all_goals simp

end Frames

section Writers

variable {s : State} (hs : s.MemoryOk)
include hs

/-! ### Memory written, and canonical still -/

/-! `Scratch` -/

@[simp] theorem State.loseLine_memoryOk (line : Nat) : (s.loseLine line).MemoryOk := by
  unfold State.loseLine
  dsimp only [State.MemoryOk]
  exact Memory.wf_writeN hs _ _

@[simp] theorem State.lineEvent_memoryOk (v line sub : Nat) : (s.lineEvent v line sub).MemoryOk := by
  simp [State.MemoryOk, hs, State.lineEvent]

@[simp] theorem State.readEvent_memoryOk (v line sub : Nat) : (s.readEvent v line sub).MemoryOk := by
  unfold State.readEvent
  split <;> simp [State.MemoryOk, hs]

@[simp] theorem State.found_memoryOk (v a n : Nat) : (s.found v a n).MemoryOk := by
  unfold State.found
  split
  · exact State.foldl_memoryOk (fun s g hs => by split <;> simp [State.MemoryOk, hs]) _ hs
  · exact hs

@[simp] theorem State.foundAll_memoryOk (v a n : Nat) : (s.foundAll v a n).MemoryOk := by
  unfold State.foundAll
  split <;> simp +contextual [State.MemoryOk, hs]

@[simp] theorem State.storeBytes_memoryOk (a : Nat) (bs : List Byte) (pz : Bool) : (s.storeBytes a bs pz).MemoryOk := by
  unfold State.storeBytes
  dsimp only
  split
  · exact hs
  · exact Memory.wf_writeN hs a bs

@[simp] theorem State.storeNat_memoryOk (a n x : Nat) : (s.storeNat a n x).MemoryOk := by
  simp [State.MemoryOk, hs, State.storeNat]

/-! `Global` -/

@[simp] theorem State.gLane_memoryOk (x : Iss) (n : Nat) (need : Rights) (atomic : Bool) (w : Want) :
    (s.gLane x n need atomic w).2.MemoryOk := by
  unfold State.gLane
  dsimp only
  split
  · exact hs
  · split <;> rename_i heq <;> have hm := mem_of_snd heq
    all_goals repeat' split
    all_goals simp [State.MemoryOk, hm, hs]

@[simp] theorem State.gLanes_memoryOk (x : Iss) (n : Nat) (need : Rights) (atomic : Bool) (ws : List Want) :
    (s.gLanes x n need atomic ws).2.MemoryOk := by
  induction ws generalizing s with
  | nil => exact hs
  | cons w ws ih =>
    have ht := State.gLane_memoryOk hs x n need atomic w
    unfold State.gLanes
    split <;> rename_i heq <;> rw [heq] at ht
    · exact ht
    · exact ht
    · have hu := ih ht
      split
      · rename_i heq'; rw [heq'] at hu; exact hu
      · exact hu

@[simp] theorem State.performLane_memoryOk (kind : GKind) (n : Nat) (a : LaneAcc) : (s.performLane kind n a).2.MemoryOk := by
  unfold State.performLane
  split <;> simp [State.MemoryOk, hs]

@[simp] theorem State.performLanes_memoryOk (g : GOp) : (s.performLanes g).2.MemoryOk := by
  refine foldl_snd_memoryOk (fun a x ha => ?_) _ hs
  dsimp only
  split <;> simp [State.MemoryOk, ha]

@[simp] theorem State.performLoad_memoryOk (g : GOp) : (s.performLoad g).2.MemoryOk := by
  simp [State.MemoryOk, hs, State.performLoad]

@[simp] theorem State.rowGo_memoryOk (core v : Nat) (out : Bool) (r : Row) (known : Option Trans) (k va : Nat) (ps : List Piece)
    (bad : Option Nat) :
    (s.rowGo core v out r known k va ps bad).2.MemoryOk := by
  induction k generalizing s va ps bad with
  | zero => exact hs
  | succ k ih =>
    unfold State.rowGo
    dsimp only
    split
    · split <;> exact hs
    split
    · exact hs
    split
    · exact hs
    split <;> rename_i heq <;> simp only [heq]
    · exact ih (State.ite_memoryOk hs (State.found_memoryOk hs ..)) ..
    · exact ih hs ..
    · exact hs
    · exact ih hs ..

@[simp] theorem State.rowStep_memoryOk (core v : Nat) (out : Bool) (known : Option Trans) (r : Row) :
    (s.rowStep core v out known r).2.MemoryOk := by
  unfold State.rowStep
  split
  · dsimp only
    repeat' split
    all_goals simp [State.MemoryOk, hs]
  · exact hs

@[simp] theorem State.rowsStep_memoryOk (core v : Nat) (out : Bool) (known : Option Trans) (rows : List Row) :
    (s.rowsStep core v out known rows).2.MemoryOk := by
  refine foldl_snd_memoryOk (fun a r ha => ?_) _ hs
  exact State.rowStep_memoryOk ha core v out known r

@[simp] theorem State.sendCopy_memoryOk (x : Iss) (kind : CopyKind) (out : Bool) (rows : List Row) (counter : Option Nat)
    (word : Option (Nat × Nat × Nat)) (early : Option (Nat × Nat)) :
    (s.sendCopy x kind out rows counter word early).MemoryOk := by
  simp [State.MemoryOk, hs, State.sendCopy]

@[simp] theorem State.loseReads_memoryOk (lost : Nat → Bool) (c : Copy) : (s.loseReads lost c).MemoryOk := by
  unfold State.loseReads
  split <;> simp +contextual [State.MemoryOk, hs]

@[simp] theorem State.putRow_memoryOk (r : Row) : (s.putRow r).MemoryOk :=
  State.foldl_memoryOk (fun s p hs => by split <;> simp [State.MemoryOk, hs]) _ hs

@[simp] theorem State.writeRows_memoryOk (c : Copy) (rows : List Row) : (s.writeRows c rows).MemoryOk := by
  unfold State.writeRows
  dsimp only
  split
  · have hr := State.foldl_memoryOk (fun s r hs => State.putRow_memoryOk hs r) rows hs
    repeat' split
    all_goals simp [State.MemoryOk, hr]
  · split
    · refine State.foldl_memoryOk (fun s _ hs => ?_) rows ?_
      · split <;> simp [State.MemoryOk, hs]
      · split <;> simp [State.MemoryOk, hs]
    · split <;> simp [State.MemoryOk, hs]

@[simp] theorem State.walkRows_memoryOk (w : Walk) (hit : Option Trans) (c : Copy) : (s.walkRows w hit c).MemoryOk := by
  refine foldl_snd_memoryOk (fun a r ha => ?_) _ hs
  split <;> simp [State.MemoryOk, ha]

@[simp] theorem State.endWalk_memoryOk (w : Walk) : (s.endWalk w).MemoryOk := by
  unfold State.endWalk
  dsimp only
  repeat' split
  all_goals simp +contextual [State.MemoryOk, hs]

/-! `Control` -/

@[simp] theorem State.readPart_memoryOk (l : OvlLoad) (va n : Nat) : (s.readPart l va n).2.MemoryOk := by
  unfold State.readPart
  split <;> rename_i heq <;> have hm := mem_of_snd heq
  all_goals dsimp only
  all_goals repeat' split
  all_goals simp [State.MemoryOk, hm, hs]

@[simp] theorem State.readImage_memoryOk (l : OvlLoad) (va n : Nat) : (s.readImage l va n).2.MemoryOk := by
  refine foldl_snd_memoryOk (fun a p ha => ?_) _ hs
  split
  · have hr := State.readPart_memoryOk ha l p.1 p.2
    split
    · rename_i heq; rw [heq] at hr; exact hr
    · exact hr
  · exact ha

@[simp] theorem State.loadImage_memoryOk (l : OvlLoad) : (s.loadImage l).2.MemoryOk := by
  unfold State.loadImage
  split <;> simp [State.MemoryOk, hs]

@[simp] theorem State.refetch_memoryOk (core slot : Nat) (b : Beam) (vd : Nat) (pc : Word) :
    (s.refetch core slot b vd pc).MemoryOk := by
  unfold State.refetch
  split
  · exact hs
  · dsimp only
    split <;> rename_i heq <;> have ht := memoryOk_of_snd heq (State.readImage_memoryOk hs ..)
    all_goals simp [State.MemoryOk, ht, hs]

/-! `System` -/

@[simp] theorem State.putBlock_memoryOk (ps : List Place) (bs : List Byte) (bad : Nat → Bool) :
    (s.putBlock ps bs bad).MemoryOk := by
  refine State.foldl_memoryOk (fun s e hs => ?_) _ hs
  split
  · dsimp only
    split <;> simp [State.MemoryOk, hs]
  · exact hs

/-! `Fill` -/

@[simp] theorem State.fillFrom_memoryOk (f : Fill) (g : GOp) : (s.fillFrom f g).MemoryOk := by
  unfold State.fillFrom
  split <;> simp [State.MemoryOk, hs]

@[simp] theorem State.ringWrite_memoryOk (v : Nat) (e : BitVec 256) : (s.ringWrite v e).MemoryOk := by
  unfold State.ringWrite
  dsimp only
  repeat' split
  all_goals simp [State.MemoryOk, hs]

@[simp] theorem State.completePrism_memoryOk (f : Fill) (p : PrismOut) : (s.completePrism f p).MemoryOk := by
  unfold State.completePrism
  split <;> simp [State.MemoryOk, hs]

/-! `Launch` -/

@[simp] theorem State.cpRead_memoryOk (v va n : Nat) : (s.cpRead v va n).2.MemoryOk := by
  refine foldl_snd_memoryOk (fun a p ha => ?_) _ hs
  split
  · exact ha
  · split <;> simp_all [State.MemoryOk]

@[simp] theorem State.saw_memoryOk (v va n : Nat) : (s.saw v va n).MemoryOk := by
  simp [State.MemoryOk, hs, State.saw]

theorem State.cpWrite_memoryOk {t : State} {v va : Nat} {bs : List Byte} (h : s.cpWrite v va bs = some t) : t.MemoryOk := by
  unfold State.cpWrite at h
  repeat' split at h
  all_goals cases h
  all_goals simp [State.MemoryOk, hs]

@[simp] theorem State.cpQuiet_memoryOk (v va : Nat) (bs : List Byte) : (s.cpQuiet v va bs).MemoryOk := by
  unfold State.cpQuiet
  split <;> rename_i heq
  · have ht := State.cpWrite_memoryOk hs heq
    exact ht
  · exact hs

@[simp] theorem State.statusWord_memoryOk (v va word launch sub : Nat) : (s.statusWord v va word launch sub).MemoryOk := by
  unfold State.statusWord
  dsimp only
  split
  · exact hs
  split <;> rename_i heq
  · simp only [Option.ite_none_left_eq_some] at heq
    exact State.cpWrite_memoryOk hs heq.2
  · exact hs

@[simp] theorem State.finishGraph_memoryOk (v g code : Nat) : (s.finishGraph v g code).MemoryOk := by
  unfold State.finishGraph
  split <;> simp [State.MemoryOk, hs]

@[simp] theorem State.settleGraph_memoryOk (v g : Nat) : (s.settleGraph v g).MemoryOk := by
  unfold State.settleGraph
  split <;> simp [State.MemoryOk, hs]

@[simp] theorem State.endNode_memoryOk (v g n code : Nat) : (s.endNode v g n code).MemoryOk := by
  simp [State.MemoryOk, hs, State.endNode]

@[simp] theorem State.finishLaunch_memoryOk (v l code : Nat) : (s.finishLaunch v l code).MemoryOk := by
  unfold State.finishLaunch
  repeat' split
  all_goals simp [State.MemoryOk, hs]

@[simp] theorem State.dispatch_memoryOk (v l : Nat) : (s.dispatch v l).MemoryOk := by
  unfold State.dispatch
  dsimp only
  repeat' split
  all_goals simp [State.MemoryOk, hs]

@[simp] theorem State.endLaunch_memoryOk (v l code : Nat) : (s.endLaunch v l code).MemoryOk := by
  unfold State.endLaunch
  repeat' split
  all_goals simp [State.MemoryOk, hs]

@[simp] theorem State.skipNode_memoryOk (v g n q : Nat) (nd : Node) : (s.skipNode v g n q nd).MemoryOk := by
  simp [State.MemoryOk, hs, State.skipNode]

/-! `Graph` -/

@[simp] theorem State.finishCopy_memoryOk (v q stat va code : Nat) (node : Option (Nat × Nat)) :
    (s.finishCopy v q stat va code node).MemoryOk := by
  unfold State.finishCopy
  split <;> simp [State.MemoryOk, hs]

@[simp] theorem State.startCopy_memoryOk (v q p : Nat) (node : Option (Nat × Nat)) : (s.startCopy v q p node).MemoryOk := by
  unfold State.startCopy
  dsimp only
  repeat' split
  all_goals simp [State.MemoryOk, hs]

@[simp] theorem State.lineFrom_memoryOk (v src n : Nat) (refused : Bool) : (s.lineFrom v src n refused).2.MemoryOk := by
  unfold State.lineFrom
  split <;> simp [State.MemoryOk, hs]

theorem State.lineTo_memoryOk {t : State} {v dst : Nat} {bs : List Byte} {pz refused : Bool}
    (h : s.lineTo v dst bs pz refused = .ok t) :
    t.MemoryOk := by
  unfold State.lineTo at h
  repeat' split at h
  all_goals cases h
  all_goals simp [State.MemoryOk, hs]

@[simp] theorem State.moveLine_memoryOk (v src dst n : Nat) (refused : Option Bool) :
    (s.moveLine v src dst n refused).2.MemoryOk := by
  unfold State.moveLine
  split <;> rename_i heq <;> have ht := memoryOk_of_snd heq (State.lineFrom_memoryOk hs ..)
  · exact ht
  · split
    · exact ht
    · rename_i heq'; exact State.lineTo_memoryOk ht heq'

@[simp] theorem State.copyGo_memoryOk (v src dst len : Nat) (refusedAt : Option (Nat × Bool)) (left o : Nat) :
    (State.copyGo v src dst len refusedAt left o s).2.MemoryOk := by
  induction left generalizing s o with
  | zero => exact hs
  | succ left ih =>
    unfold State.copyGo
    dsimp only
    split
    · exact hs
    · split <;> rename_i heq <;> have ht := memoryOk_of_snd heq (State.moveLine_memoryOk hs ..)
      · exact ht
      · exact ih ht _

@[simp] theorem State.readGraph_memoryOk (v va : Nat) : (s.readGraph v va).2.MemoryOk := by
  unfold State.readGraph
  split <;> rename_i heq <;> have ht := memoryOk_of_snd heq (State.cpRead_memoryOk hs ..)
  · exact ht
  split
  · exact ht
  split <;> rename_i heq' <;> exact memoryOk_of_snd heq' (State.cpRead_memoryOk ht ..)

@[simp] theorem State.startGraph_memoryOk (v q p : Nat) : (s.startGraph v q p).MemoryOk := by
  unfold State.startGraph
  dsimp only
  repeat' split
  all_goals simp [State.MemoryOk, hs]

@[simp] theorem State.startNode_memoryOk (v g n q : Nat) (nd : Node) : (s.startNode v g n q nd).MemoryOk := by
  simp [State.MemoryOk, hs, State.startNode]

@[simp] theorem State.putMapped_memoryOk (v va : Nat) (bs : List Byte) (pz : Nat → Bool) : (s.putMapped v va bs pz).MemoryOk := by
  refine State.foldl_memoryOk (fun s p hs => ?_) _ hs
  dsimp only
  repeat' split
  all_goals simp [State.MemoryOk, hs]

/-! `Queue` -/

@[simp] theorem State.writeBack_memoryOk (v q : Nat) : (s.writeBack v q).MemoryOk := by
  unfold State.writeBack
  split <;> simp [State.MemoryOk, hs]

@[simp] theorem State.mapTo_memoryOk (v q t : Nat) : (s.mapTo v q t).MemoryOk := by
  simp [State.MemoryOk, hs, State.mapTo]

@[simp] theorem State.unmap_memoryOk (v q : Nat) : (s.unmap v q).MemoryOk := by
  unfold State.unmap
  repeat' split
  all_goals simp [State.MemoryOk, hs]

@[simp] theorem State.halt_memoryOk (v q status : Nat) : (s.halt v q status).MemoryOk := by
  simp [State.MemoryOk, hs, State.halt]

@[simp] theorem State.sawRing_memoryOk (v : Nat) (x : Queue) : (s.sawRing v x).MemoryOk := by
  simp [State.MemoryOk, hs, State.sawRing]

@[simp] theorem State.sawWait_memoryOk (v p : Nat) : (s.sawWait v p).MemoryOk := by
  simp [State.MemoryOk, hs, State.sawWait]

@[simp] theorem State.signal_memoryOk (v p : Nat) : (s.signal v p).MemoryOk := by
  unfold State.signal
  dsimp only
  split <;> rename_i heq
  · simp only [Option.ite_none_left_eq_some] at heq
    exact State.cpWrite_memoryOk hs heq.2
  · exact hs

@[simp] theorem State.sawWatched_memoryOk (v : Nat) (x : Queue) : (s.sawWatched v x).MemoryOk := by
  unfold State.sawWatched
  repeat' split
  all_goals simp [State.MemoryOk, hs]

/-! `Power` -/

@[simp] theorem State.saveDirs_memoryOk (d : VDev) : (s.saveDirs d).MemoryOk := by
  simp +contextual [State.MemoryOk, hs, State.saveDirs]

@[simp] theorem State.region_memoryOk (v src dst len : Nat) : (s.region v src dst len).MemoryOk :=
  Memory.wf_foldl _ id (Memory.wf_filter (State.foundAll_memoryOk hs v src len) _)

@[simp] theorem State.collapseStep_memoryOk (v : Nat) (d : VDev) : (s.collapseStep v d).MemoryOk := by
  unfold State.collapseStep
  split <;> simp +contextual [State.MemoryOk, hs]

@[simp] theorem State.collapseOne_memoryOk (v : Nat) : (s.collapseOne v).MemoryOk := by
  unfold State.collapseOne
  split <;> simp [State.MemoryOk, hs]

@[simp] theorem State.restored_memoryOk (v : Nat) : (s.restored v).MemoryOk := by
  unfold State.restored
  split
  · exact hs
  split
  · exact hs
  have hr (l : List (Nat × Nat × Nat)) : (l.foldr (fun r s => s.region v r.2.1 r.1 r.2.2) s).MemoryOk :=
    List.foldrRecOn (motive := State.MemoryOk) l _ hs (fun t ht r _ => State.region_memoryOk ht ..)
  dsimp only
  repeat' split
  all_goals simp [State.MemoryOk, hr, hs]

@[simp] theorem State.wakeVd_memoryOk (v : Nat) : (s.wakeVd v).MemoryOk := by
  unfold State.wakeVd
  repeat' split
  all_goals simp [State.MemoryOk, hs]

/-! `Ports` -/

@[simp] theorem State.losePort_memoryOk (key : Nat) : (s.losePort key).MemoryOk := by
  unfold State.losePort
  split <;> simp +contextual [State.MemoryOk, hs]

@[simp] theorem State.takeRows_memoryOk (v : Nat) (rows : List (Nat × List Byte)) : (s.takeRows v rows).2.MemoryOk := by
  refine foldl_snd_memoryOk (fun a r ha => ?_) _ hs
  split
  · exact State.foldl_memoryOk (fun s p hs => State.storeBytes_memoryOk hs ..) _ ha
  · exact ha

@[simp] theorem State.remote_memoryOk (v : Nat) (r : Remote) : (s.remote v r).MemoryOk := by
  cases r with
  | rows rows => simp [State.MemoryOk, State.remote, hs]
  | read va len => exact State.foldl_memoryOk (fun s p hs => by split <;> simp [State.MemoryOk, hs]) _ hs
  | atomic op ty va val cmp =>
    unfold State.remote
    dsimp only
    repeat' split
    all_goals simp [State.MemoryOk, hs]
  | anchor off bytes =>
    unfold State.remote
    dsimp only
    split <;> simp [State.MemoryOk, hs]

/-! `Vdevs` -/

@[simp] theorem State.reseal_memoryOk (key : Nat) (r : Nat × Nat) : (s.reseal key r).MemoryOk :=
  Memory.wf_filter hs _

@[simp] theorem State.makeVd_memoryOk (v : Nat) (d : VDev) : (s.makeVd v d).MemoryOk := by
  have seated (t : State) (ht : t.MemoryOk) : (d.cores.foldl (fun (s : State) n => s.updCore n Core.blank)
      { t with vds := t.vds.put v d, wakeBits := t.wakeBits.put (wakeLine v) (v, false) }).MemoryOk :=
    State.foldl_memoryOk (fun s n hs => by simpa [State.MemoryOk] using hs) d.cores ht
  exact seated _ (State.foldl_memoryOk (fun s r hs => State.reseal_memoryOk hs ..) d.pools hs)

@[simp] theorem State.killed_memoryOk (v l : Nat) : (s.killed v l).MemoryOk := by
  unfold State.killed
  dsimp only
  repeat' split
  all_goals simp [State.MemoryOk, hs]

@[simp] theorem State.killAll_memoryOk (v : Nat) (d : VDev) : (s.killAll v d).MemoryOk := by
  unfold State.killAll
  refine State.foldl_memoryOk (fun s e hs => State.skipNode_memoryOk hs ..) _ ?_
  refine State.foldl_memoryOk (fun s c hs => State.finishCopy_memoryOk hs ..) _ ?_
  refine State.foldl_memoryOk (fun s l hs => State.killed_memoryOk hs ..) _ ?_
  simp [State.MemoryOk, hs]

@[simp] theorem State.scrub_memoryOk (v : Nat) (d : VDev) : (s.scrub v d).MemoryOk :=
  Memory.wf_filter hs _

@[simp] theorem State.setConsumed_memoryOk (d : VDev) (n : Nat) : (s.setConsumed d n).MemoryOk := by
  unfold State.setConsumed
  dsimp only
  split
  · exact State.storeNat_memoryOk (State.foldl_memoryOk (fun s b hs => State.storeNat_memoryOk hs ..) _ hs) ..
  · simp [State.MemoryOk, hs]

/-! `Loader` -/

@[simp] theorem State.actOn_memoryOk (pkt : Packet) (b : Binding) : (s.actOn pkt b).MemoryOk := by
  unfold State.actOn
  split <;> simp [State.MemoryOk, hs]

theorem State.placeData_memoryOk {t : State} {v va : Nat} {bs : List Byte} (h : s.placeData v va bs = some t) : t.MemoryOk := by
  unfold State.placeData at h
  refine List.foldlRecOn (motive := fun o : Option State => ∀ t, o = some t → t.MemoryOk)
    (lineParts va bs.length) _ ?_ (fun o ho p _ t ht => ?_) t h
  · rintro t ⟨⟩; exact hs
  · obtain ⟨u, hu, hw⟩ := Option.bind_eq_some_iff.1 ht
    exact State.cpWrite_memoryOk (ho u hu) hw

/-! `Poison` -/

@[simp] theorem State.event_memoryOk (g : Granule) : (s.event g).MemoryOk := by
  unfold State.event
  repeat' split
  all_goals simp [State.MemoryOk, hs]

end Writers

end Sys2Proof.Machine
end

section
/-!
SUPPORT. Every instruction, event and request keeps memory canonical: first the rules for the shapes in which they are
written, then the meanings that need a step of their own, then one case split over all of them.
-/
namespace Sys2Proof.Machine

/-! ### Outcomes -/

/-- The next state of an outcome, where it answers one, has canonical memory. -/
def OutMemoryOk (o : Out) : Prop := ∀ t, o = .next t → t.MemoryOk

@[simp] theorem outMemoryOk_next {t : State} : OutMemoryOk (.next t) ↔ t.MemoryOk :=
  ⟨fun h => h t rfl, fun h u hu => by cases hu; exact h⟩

@[simp] theorem outMemoryOk_fault (f : Fault) : OutMemoryOk (.fault f) := fun _ h => by cases h

@[simp] theorem outMemoryOk_refused (r : Refusal) : OutMemoryOk (.refused r) := fun _ h => by cases h

@[simp] theorem Res.state_hold (s : State) : Res.state s .hold = s := rfl
@[simp] theorem Res.state_walk (s t : State) : Res.state s (.walk t) = t := rfl
@[simp] theorem Res.state_trap (s : State) (u : Trap) : Res.state s (.trap u) = s := rfl
@[simp] theorem Res.state_trapIn (s t : State) (u : Trap) : Res.state s (.trapIn u t) = t := rfl
@[simp] theorem Res.state_write (s t : State) (o : RegOut) : Res.state s (.write o t) = t := rfl
@[simp] theorem Res.state_send (s t : State) (o : RegOut) : Res.state s (.send o t) = t := rfl
@[simp] theorem Res.state_sent (s t : State) : Res.state s (.sent t) = t := rfl
@[simp] theorem Res.state_sleep (s t : State) (p : Sleep) : Res.state s (.sleep p t) = t := rfl
@[simp] theorem Res.state_after (s t : State) (u : Trap) : Res.state s (.after u t) = t := rfl
@[simp] theorem Res.state_leave (s t : State) : Res.state s (.leave t) = t := rfl

/-- An instruction word whose own part leaves a state with canonical memory answers one. -/
theorem State.issue_memoryOk {s : State} (hs : s.MemoryOk) {op : Op} {h : Head} {ms : Mods} {body : Iss → State → Res}
    (hb : ∀ x, ((body x s).state s).MemoryOk) :
    OutMemoryOk (s.issue op h ms body) := by
  intro t ht
  rw [State.MemoryOk]
  rcases State.issue_mem ht with hm | ⟨x, hm⟩ <;> rw [hm]
  · exact hs
  · exact hb x

/-! ### The shared parts of instruction words and requests -/

@[simp] theorem State.spadOp_mem (s : State) (x : Iss) (n : Nat) (write rel : Bool) {go : State → Res}
    (hgo : ((go s).state s).mem = s.mem) :
    ((s.spadOp x n write rel go).state s).mem = s.mem := by
  unfold State.spadOp
  repeat' split
  all_goals simp [hgo]

@[simp] theorem State.prismOp_mem (s u : State) (x : Iss) (empties : Bool) (res : Nat → MatOut) (sample : Option (BitVec 256))
    (met : Bool) :
    ((s.prismOp x empties res sample met).state u).mem = s.mem := by
  unfold State.prismOp
  dsimp only
  repeat' split
  all_goals simp

@[simp] theorem State.productOp_mem (s : State) (x : Iss) (m : ModA) (exc : Nat → Option Word) (prod : Nat → Product)
    (res : Nat → MatOut) (met : Bool) :
    ((s.productOp x m exc prod res met).state s).mem = s.mem := by
  unfold State.productOp
  dsimp only
  split <;> simp

@[simp] theorem State.arriveBar_mem (s : State) (x : Iss) (cluster : Bool) (b : Nat) :
    ((s.arriveBar x cluster b).state s).mem = s.mem := by
  unfold State.arriveBar
  dsimp only
  repeat' split
  all_goals simp

theorem State.spawnOp_mem (s : State) (x : Iss) {fin : List Nat → List SpawnRec → Nat → State → Res}
    (hfin : ∀ a b m t, ((fin a b m t).state s).mem = t.mem) :
    ((s.spawnOp x fin).state s).mem = s.mem := by
  unfold State.spawnOp
  dsimp only
  repeat' split
  all_goals simp [hfin]

/-- What a request's action answers has canonical memory, where it answers. -/
def AnswerMemoryOk : Option (Option Reply × State) → Prop
  | none => True
  | some r => r.2.MemoryOk

@[simp] theorem answerMemoryOk_none : AnswerMemoryOk none := trivial

@[simp] theorem answerMemoryOk_some {r : Option Reply × State} : AnswerMemoryOk (some r) ↔ r.2.MemoryOk := Iff.rfl

theorem answerMemoryOk_ite {c : Prop} [Decidable c] {a b : Option (Option Reply × State)} (ha : AnswerMemoryOk a)
    (hb : AnswerMemoryOk b) :
    AnswerMemoryOk (if c then a else b) := by
  split
  · exact ha
  · exact hb

theorem execPowerUp_memoryOk (s : State) : OutMemoryOk (execPowerUp s) := by
  simp only [execPowerUp, outMemoryOk_next, State.MemoryOk, State.openElection_mem]
  exact State.reset_memoryOk

section Meanings

variable {s : State} (hs : s.MemoryOk)
include hs

@[simp] theorem State.gOp_memoryOk (x : Iss) (kind : GKind) (n : Nat) (need : Rights) (ord : Ordr) (scope : Scope)
    (want : Nat → Want) :
    ((s.gOp x kind n need ord scope want).state s).MemoryOk := by
  unfold State.gOp
  dsimp only
  split
  · exact hs
  split
  · exact hs
  split <;> rename_i heq <;> have ht := memoryOk_of_snd heq (State.gLanes_memoryOk hs ..)
  all_goals simp [State.MemoryOk, ht]

/-! ### Families of instructions -/

theorem alu_memoryOk (op : Op) (h : Head) (m : ModA) (t : Ty) (f : Iss → Nat → Nat) : OutMemoryOk (alu op h m t f s) :=
    State.issue_memoryOk hs (fun _ => hs)

theorem aluLater_memoryOk (op : Op) (h : Head) (m : ModA) (t : Ty) (f : Iss → Nat → Nat) : OutMemoryOk (aluLater op h m t f s) :=
    State.issue_memoryOk hs (fun _ => hs)

theorem aluPred_memoryOk (op : Op) (h : Head) (m : ModA) (f : Iss → Nat → Bool) : OutMemoryOk (aluPred op h m f s) :=
  State.issue_memoryOk hs (fun _ => hs)

theorem prism_memoryOk (op : Op) (h : Head) (m : ModA) (empties : Bool) (res : Iss → Nat → MatOut) :
    OutMemoryOk (prism op h m empties res s) := by
  refine State.issue_memoryOk hs (fun x => ?_)
  split <;> simp [State.MemoryOk, hs]

theorem spadLoad_memoryOk (op : Op) (h : Head) (m : ModM) : OutMemoryOk (spadLoad op h m s) := by
  refine State.issue_memoryOk hs (fun x => ?_)
  rw [State.MemoryOk, State.spadOp_mem]
  · exact hs
  · split <;> simp

theorem spadStore_memoryOk (op : Op) (h : Head) (m : ModM) : OutMemoryOk (spadStore op h m s) := by
  refine State.issue_memoryOk hs (fun x => ?_)
  rw [State.MemoryOk, State.spadOp_mem]
  · exact hs
  · simp

theorem spadAtomic_memoryOk (op : Op) (h : Head) (m : ModMA) (ret : Bool) : OutMemoryOk (spadAtomic op h m ret s) := by
  refine State.issue_memoryOk hs (fun x => ?_)
  dsimp only
  repeat' split
  all_goals simp [State.MemoryOk, hs]

theorem globalAtomic_memoryOk (op : Op) (h : Head) (m : ModMA) (ret : Bool) : OutMemoryOk (globalAtomic op h m ret s) := by
  refine State.issue_memoryOk hs (fun x => ?_)
  split
  · split <;> rename_i heq <;> simp [State.MemoryOk, mem_of_snd heq, hs]
  · exact State.gOp_memoryOk hs ..

/-- A packet whose effect keeps memory canonical: what its reading finds keeps it too. -/
theorem State.packet_memoryOk {v q : Nat} {kinds : Nat → Bool} {body : Queue → Nat → State → State}
    (hb : ∀ x p t, t.MemoryOk → (body x p t).MemoryOk) :
    OutMemoryOk (s.packet v q kinds body) := by
  unfold State.packet
  repeat' split
  all_goals simp [State.MemoryOk, hs]
  exact hb _ _ _ (State.sawRing_memoryOk hs ..)

theorem State.manage_memoryOk {r : MReq} {op : Nat} {permitted : Bool} {fields : List (Nat × Nat)}
    {act : State → Option (Option Reply × State)} (ha : AnswerMemoryOk (act s)) :
    OutMemoryOk (s.manage r op permitted fields act) := by
  unfold State.manage
  split
  · simp [State.MemoryOk, hs]
  split
  · simp [State.MemoryOk, hs]
  split
  · simp [State.MemoryOk, hs]
  split <;> rename_i heq
  · simp [State.MemoryOk, hs]
  all_goals
    rw [heq] at ha
    simpa [State.MemoryOk] using ha

theorem queueReq_memoryOk {r : MReq} {sub : Nat} {fields : List (Nat × Nat)} {act : State → Option (Option Reply × State)}
    (ha : AnswerMemoryOk (act s)) :
    OutMemoryOk (queueReq r sub fields s act) := by
  unfold queueReq
  split
  · simpa using hs
  · exact State.manage_memoryOk hs (answerMemoryOk_ite ha answerMemoryOk_none)

theorem sharedReq_memoryOk {r : MReq} {sub : Nat} {fields : List (Nat × Nat)} {act : State → Option (Option Reply × State)}
    (ha : AnswerMemoryOk (act s)) :
    OutMemoryOk (sharedReq r sub fields s act) := by
  unfold sharedReq
  split
  · simpa using hs
  · exact State.manage_memoryOk hs (answerMemoryOk_ite ha answerMemoryOk_none)

/-! ### Meanings with a step of their own -/

theorem execBcopy_memoryOk (h : Head) (m : ModX) : OutMemoryOk (execBcopy h m s) := by
  refine State.issue_memoryOk hs (fun x => ?_)
  have hw : (if m.out then s.arrivalWord x else (.ok (none, none), s)).2.MemoryOk := by
    split <;> simp [State.MemoryOk, hs]
  dsimp only
  split
  · exact hs
  split
  · exact hs
  split
  · exact hs
  split
  · exact hs
  split <;> rename_i heq <;> have ht := memoryOk_of_snd heq hw <;> simp [State.MemoryOk, hs, ht]

theorem execSpawn_memoryOk (h : Head) : OutMemoryOk (execSpawn h s) := by
  refine State.issue_memoryOk hs (fun x => ?_)
  rw [State.MemoryOk, State.spawnOp_mem]
  · exact hs
  · intro a b m t
    split <;> rfl

theorem execSpawnTry_memoryOk (h : Head) : OutMemoryOk (execSpawnTry h s) := by
  refine State.issue_memoryOk hs (fun x => ?_)
  rw [State.MemoryOk, State.spawnOp_mem]
  · exact hs
  · intros
    rfl

theorem execRespond_memoryOk (h : Head) : OutMemoryOk (execRespond h s) := by
  refine State.issue_memoryOk hs (fun x => ?_)
  have hr : (s.respondAll x x.lanes).1.MemoryOk := by simpa [State.MemoryOk] using hs
  split
  · exact hs
  split
  · exact hs
  split <;> rename_i heq <;> rw [heq] at hr <;> exact hr

theorem execDirput_memoryOk (h : Head) : OutMemoryOk (execDirput h s) := by
  refine State.issue_memoryOk hs (fun x => ?_)
  have hr := x.serve_mem (fun s i => s.putOne_mem x i) s
  dsimp only
  repeat' split
  all_goals simp [State.MemoryOk, hr, hs]

theorem execDirdel_memoryOk (h : Head) : OutMemoryOk (execDirdel h s) := by
  refine State.issue_memoryOk hs (fun x => ?_)
  have hr := x.serve_mem (fun s i => s.delOne_mem x i) s
  simp [State.MemoryOk, hr, hs]

theorem execOvlLoadComplete_memoryOk (id : Nat) : OutMemoryOk (execOvlLoadComplete id s) := by
  unfold execOvlLoadComplete
  split
  · simpa using hs
  split
  · simpa using hs
  split <;> rename_i heq <;> have ht := memoryOk_of_snd heq (State.loadImage_memoryOk hs _) <;> simp [State.MemoryOk, hs, ht]

theorem execEntryOverlayLoad_memoryOk (core : Nat) : OutMemoryOk (execEntryOverlayLoad core s) := by
  unfold execEntryOverlayLoad
  split
  · simpa using hs
  split
  · simpa using hs
  dsimp only
  repeat' split
  all_goals simp [State.MemoryOk, hs]

theorem execCtxsv_memoryOk (h : Head) : OutMemoryOk (execCtxsv h s) := by
  refine State.issue_memoryOk hs (fun x => ?_)
  dsimp only
  split
  · exact hs
  split
  · exact hs
  split
  · exact hs
  split <;> rename_i heq <;> have ht := mem_of_snd heq
  all_goals repeat' split
  all_goals simp [State.MemoryOk, ht, hs]

theorem execCtxld_memoryOk (h : Head) : OutMemoryOk (execCtxld h s) := by
  refine State.issue_memoryOk hs (fun x => ?_)
  dsimp only
  split
  · exact hs
  split
  · exact hs
  split
  · exact hs
  split <;> rename_i heq
  case h_4 =>
    have ht : State.MemoryOk _ := memoryOk_of_snd heq (by simp [State.MemoryOk, hs])
    split <;> simp only [State.MemoryOk, Res.state_send, Res.state_leave, State.meets_mem, State.seeNow_mem, State.gather_mem,
      State.setBeam_mem, State.issued_mem, State.updCore_mem]
    all_goals exact State.foldl_memoryOk (fun s p hs => by split <;> simp [State.MemoryOk, hs]) _ ht
  all_goals simp [State.MemoryOk, mem_of_snd heq, hs]

theorem execCopyPacketComplete_memoryOk (id : Nat) (refusedAt : Option (Nat × Bool)) :
    OutMemoryOk (execCopyPacketComplete id refusedAt s) := by
  unfold execCopyPacketComplete
  split
  · simpa using hs
  split
  · simpa using hs
  dsimp only
  split <;> rename_i heq <;> have ht := memoryOk_of_snd heq (State.copyGo_memoryOk (by exact hs) ..) <;> simp [State.MemoryOk, ht]

theorem execWaitValuePacket_memoryOk (vd queue : Nat) : OutMemoryOk (execWaitValuePacket vd queue s) := by
  refine State.packet_memoryOk hs (fun x p t ht => ?_)
  split
  · exact ht
  split <;> simp [State.MemoryOk, ht]

theorem execSignalPacket_memoryOk (vd queue : Nat) : OutMemoryOk (execSignalPacket vd queue s) := by
  refine State.packet_memoryOk hs (fun x p t ht => ?_)
  split
  · simpa [State.MemoryOk] using ht
  · exact State.ite_memoryOk ht (by simp [State.MemoryOk, ht])

theorem execSetAuthorisedDigest_memoryOk (req : MReq) : OutMemoryOk (execSetAuthorisedDigest req s) := by
  unfold execSetAuthorisedDigest
  split
  · simpa using hs
  · refine State.manage_memoryOk hs ?_
    split <;> simp [State.MemoryOk, hs]

theorem execClearAuthorisedDigest_memoryOk (req : MReq) : OutMemoryOk (execClearAuthorisedDigest req s) := by
  unfold execClearAuthorisedDigest
  split
  · simpa using hs
  · refine State.manage_memoryOk hs ?_
    split <;> simp [State.MemoryOk, hs]

theorem execDestroyVirtualDevice_memoryOk (req : MReq) : OutMemoryOk (execDestroyVirtualDevice req s) := by
  unfold execDestroyVirtualDevice
  refine State.manage_memoryOk hs ?_
  split
  · simp
  rename_i d _
  split
  · simp
  have scrubbed := State.scrub_memoryOk (s := (s.killAll (reqVd req) d).dropFlight (reqVd req) d)
    (by simp [State.MemoryOk, hs]) (reqVd req) d
  have blanked (t : State) (ht : t.MemoryOk) : (d.cores.foldl (fun (s : State) n => s.updCore n Core.blank) t).MemoryOk :=
    State.foldl_memoryOk (fun s n hs => by simpa [State.MemoryOk] using hs) d.cores ht
  have forgotten (t : State) (ht : t.MemoryOk) (v key : Nat) : ({ t with vds := t.vds.del v }.forget v key).MemoryOk := by
    simpa [State.MemoryOk] using ht
  exact forgotten _ (blanked _ (by simpa [State.MemoryOk] using scrubbed)) _ _

theorem execWakeRequest_memoryOk (req : MReq) : OutMemoryOk (execWakeRequest req s) := by
  refine State.manage_memoryOk hs ?_
  split <;> simp [State.MemoryOk, hs]

theorem execLoadContainer_memoryOk (req : MReq) : OutMemoryOk (execLoadContainer req s) := by
  refine State.manage_memoryOk (by simpa [State.MemoryOk] using hs) ?_
  dsimp only
  have hr := State.cpRead_memoryOk (s := s.holdRequest req false) (by simpa [State.MemoryOk] using hs)
  split
  · simp
  split
  · simp
  split
  · simp [State.MemoryOk, hs]
  split <;> rename_i heq <;> have ht := memoryOk_of_snd heq (hr ..)
  · simpa using ht
  split
  · split
    · rename_i u hp
      have hu : u.MemoryOk := by
        split at hp
        · exact State.placeData_memoryOk ht (Option.ite_none_left_eq_some.1 hp).2
        · obtain ⟨-, hp⟩ := Option.ite_none_right_eq_some.1 hp
          cases hp
          exact ht
      simpa [State.MemoryOk] using hu
    · simpa using ht
  · simpa using ht

theorem execAssociationPacketReceive_memoryOk (pkt : Packet) : OutMemoryOk (execAssociationPacketReceive pkt s) := by
  unfold execAssociationPacketReceive
  split
  · simpa [State.MemoryOk] using hs
  dsimp only
  split
  · split <;> simp [State.MemoryOk, hs]
  split
  · simpa using hs
  split
  · simpa [State.MemoryOk] using hs
  split <;> simp [State.MemoryOk, hs]

theorem execUpdateFirmware_memoryOk (req : MReq) : OutMemoryOk (execUpdateFirmware req s) := by
  unfold execUpdateFirmware
  refine State.manage_memoryOk hs (answerMemoryOk_ite answerMemoryOk_none ?_)
  generalize req.body.length - 4736 = n
  refine answerMemoryOk_ite hs ?_
  refine State.foldl_memoryOk (fun s t hs => ?_) _ hs
  simpa [State.MemoryOk] using hs

/-! ### Every meaning -/

/-- Every instruction, event, packet and request, where it answers a state, answers one with canonical memory. -/
theorem exec_memoryOk (i : Instr) : OutMemoryOk (exec i s) := by
  cases i
  -- words that write registers only
  case add | sub | addc | mul | mulhi | mad | min | max | abs | neg | shl | shr | sar | rot | clz | ctz | popc | brev | bfx |
      bfi | lea | sel | movi | movh | ext | fadd | fsub | fmul | fma | fscale | frint | fmin | fmax | fminm | fmaxm |
      fclass => exact alu_memoryOk hs _ _ _ _ _
  case div | rem | fdiv | frcp | fsqrt | frsq | fexp2 | flog2 | fsin | fcos | ftanh => exact aluLater_memoryOk hs _ _ _ _ _
  case and | or | xor | andn | mov | cvt | cvtq | cvtd | dot2 | dot4 | dot8 | packb | unpackb | shfl | vote | redLane | scan |
      lead | rebal | topk | dirq | nop | lpad => exact State.issue_memoryOk hs (fun _ => hs)
  case cmp | fcmp => exact aluPred_memoryOk hs _ _ _ _
  case ld | lds => exact spadLoad_memoryOk hs _ _ _
  case st | sts => exact spadStore_memoryOk hs _ _ _
  case atoms | reds => exact spadAtomic_memoryOk hs _ _ _ _
  case atom | redGlobal => exact globalAtomic_memoryOk hs _ _ _ _
  case mzero | mfill | mget | mset | mmov | mtrn | madd | mhad | mred | minv | mlu | mchol | msolve | mexp =>
    exact prism_memoryOk hs _ _ _ _ _
  -- meanings with a step of their own
  case bcopy => exact execBcopy_memoryOk hs _ _
  case spawn => exact execSpawn_memoryOk hs _
  case spawnTry => exact execSpawnTry_memoryOk hs _
  case respond => exact execRespond_memoryOk hs _
  case dirput => exact execDirput_memoryOk hs _
  case dirdel => exact execDirdel_memoryOk hs _
  case ovlLoadComplete => exact execOvlLoadComplete_memoryOk hs _
  case entryOverlayLoad => exact execEntryOverlayLoad_memoryOk hs _
  case ctxsv => exact execCtxsv_memoryOk hs _
  case ctxld => exact execCtxld_memoryOk hs _
  case copyPacketComplete => exact execCopyPacketComplete_memoryOk hs _ _
  case waitValuePacket => exact execWaitValuePacket_memoryOk hs _ _
  case signalPacket => exact execSignalPacket_memoryOk hs _ _
  case powerUp => exact execPowerUp_memoryOk s
  case setAuthorisedDigest => exact execSetAuthorisedDigest_memoryOk hs _
  case clearAuthorisedDigest => exact execClearAuthorisedDigest_memoryOk hs _
  case destroyVirtualDevice => exact execDestroyVirtualDevice_memoryOk hs _
  case wakeRequest => exact execWakeRequest_memoryOk hs _
  case loadContainer => exact execLoadContainer_memoryOk hs _
  case associationPacketReceive => exact execAssociationPacketReceive_memoryOk hs _
  case updateFirmware => exact execUpdateFirmware_memoryOk hs _
  -- words that call the shared operations
  case part | copy | ncopy | wait | arrive | solicit | dirmove | ovl | mshape | sread =>
    dsimp only [exec]
    refine State.issue_memoryOk hs (fun x => ?_)
    dsimp only
    repeat' split
    all_goals simp [State.MemoryOk, hs]
  case fence | trigger | joinat | mld | mst | fmt | rte | swrite | errq | svst | sleep | brk | mcvt | trap | kill =>
    dsimp only [exec]
    refine State.issue_memoryOk hs (fun x => ?_)
    repeat' split
    all_goals simp [State.MemoryOk, hs]
  case lda | str | bar | cbar | mma | mmasp =>
    dsimp only [exec]
    refine State.issue_memoryOk hs (fun x => ?_)
    simp [State.MemoryOk, hs]
  -- events
  case globalWritePerformed | copyStatusFill | pageWalkComplete | sleepExpiry | spawnRetry | responderPlace | doneReport |
      responseCombine | censusSlotTaken | moveReserve | moveCommit | moveInstall | registerFill | prismComplete |
      deadlineExpiry | coalescingTimerExpiry | queueMap | watchedWordRetest | saveTimeout | idleThreshold | wakeNotice |
      associationKeyAgreement | electionClose | invalidateComplete | remoteWriteAck | arrivalCounterIncrement |
      responderBoundExpiry | censusClose | jobRecordFlush | launchDispatch | launchDone | graphNodeDispatch | binTeamStart |
      teamPlace | sliceExpiry | preempt | discardComplete | saveComplete | wakeComplete | wakeFault | coreRetirement |
      portRecalibrate | portFail | portReestablished | cxlDeviceAdd | firmwareSwitch | illegalInstruction |
      nonresidentOverlayIssue | regulatorStable | wakeWrite | operatingPointLower | cxlIntegrityFailure | ideKeyRefresh |
      ownerLoss =>
    dsimp only [exec, execGlobalWritePerformed, execCopyStatusFill, execPageWalkComplete, execSleepExpiry, execSpawnRetry,
      execResponderPlace, execDoneReport, execResponseCombine, execCensusSlotTaken, execMoveReserve, execMoveCommit,
      execMoveInstall, execRegisterFill, execPrismComplete, execDeadlineExpiry, execCoalescingTimerExpiry, execQueueMap,
      execWatchedWordRetest, execSaveTimeout, execIdleThreshold, execWakeNotice, execAssociationKeyAgreement,
      execElectionClose, execInvalidateComplete, execRemoteWriteAck, execArrivalCounterIncrement,
      execResponderBoundExpiry, execCensusClose, execJobRecordFlush, execLaunchDispatch, execLaunchDone,
      execGraphNodeDispatch, execBinTeamStart, execTeamPlace, execSliceExpiry, execPreempt, execDiscardComplete,
      execSaveComplete, execWakeComplete, execWakeFault, execCoreRetirement, execPortRecalibrate, execPortFail,
      execPortReestablished, execCxlDeviceAdd, execFirmwareSwitch, execIllegalInstruction, execNonresidentOverlayIssue,
      execRegulatorStable, execWakeWrite, execOperatingPointLower, execCxlIntegrityFailure, execIdeKeyRefresh, execOwnerLoss]
    repeat' split
    all_goals simp [State.MemoryOk, hs]
  case censusScan | moveAck | watchdogExpiry | collapseComplete =>
    dsimp only [exec, execCensusScan, execMoveAck, execWatchdogExpiry, execCollapseComplete]
    repeat' split
    all_goals simp +contextual [State.MemoryOk, hs]
  -- packets
  case nopPacket | launchPacket | copyPacket | setShapePacket | graphPacket | bindWarmPacket | deadlinePacket |
      barrierPacket | badPacket =>
    dsimp only [exec]
    refine State.packet_memoryOk hs (fun x p t ht => ?_)
    simp [State.MemoryOk, ht]
  -- requests
  case claimOwnership | handOverOwnership | acceptHandover | readPackageStatus | bindAssociation | createVirtualDevice |
      installKeySet | setPtroot | writePeerEntry | invalidateRange | resetContext | readDeviationRing | setRecordRing |
      readJobRecords | unloadContainer =>
    dsimp only [exec]
    refine State.manage_memoryOk hs ?_
    dsimp only
    repeat' split
    all_goals simp [State.MemoryOk, hs]
  case createQueue | deleteQueue | resumeQueue | resetQueue =>
    dsimp only [exec]
    refine queueReq_memoryOk hs ?_
    dsimp only
    repeat' split
    all_goals simp [State.MemoryOk, hs]
  case createSharedRange | grantSharedRange | revokeSharedRange | deleteSharedRange =>
    dsimp only [exec]
    refine sharedReq_memoryOk hs ?_
    dsimp only
    repeat' split
    all_goals simp [State.MemoryOk, hs]

end Meanings

end Sys2Proof.Machine
end

section
/-!
SUPPORT. A step keeps memory canonical: the issue of a beam, the agenda, the round and the timers.
-/
namespace Sys2Proof.Machine

@[simp] theorem State.fetchHandler_mem (s : State) (core slot : Nat) (b : Beam) (vd : Nat) :
    (s.fetchHandler core slot b vd).mem = s.mem := by
  unfold State.fetchHandler
  dsimp only
  repeat' split
  all_goals simp

theorem State.noteTurn_memoryOk (s : State) (core slot : Nat) {o : Out} (ho : OutMemoryOk o) :
    OutMemoryOk (s.noteTurn core slot o) := by
  cases o with
  | next t =>
    have ht : t.MemoryOk := by simpa using ho
    exact outMemoryOk_next.2 (State.ite_memoryOk (by simpa [State.MemoryOk] using ht) ht)
  | fault f => simp [State.noteTurn]
  | refused r => simp [State.noteTurn]

theorem State.issueReady_memoryOk {s : State} (hs : s.MemoryOk) (core slot : Nat) (b : Beam) (vd : Nat) :
    OutMemoryOk (s.issueReady core slot b vd) := by
  unfold State.issueReady
  split
  · simp [State.MemoryOk, hs]
  split
  · simpa using hs
  split
  · simp [State.MemoryOk, hs]
  split
  · simp [State.MemoryOk, hs]
  split
  · simpa using hs
  · exact State.noteTurn_memoryOk s core slot (exec_memoryOk hs _)

theorem State.issueAt_memoryOk {s : State} (hs : s.MemoryOk) (core slot : Nat) : OutMemoryOk (s.issueAt core slot) := by
  have hf : ({ s with cur := some (core, slot) }.finish core slot).MemoryOk := by simpa [State.MemoryOk] using hs
  unfold State.issueAt
  dsimp only
  split
  · simpa using hf
  split
  · simpa using hf
  split
  · exact State.issueReady_memoryOk hf _ _ _ _
  · simpa using hf

/-- A state that an outcome is kept for, because something moved, is that outcome's next state. -/
theorem State.next_of_progress {s t : State} {o : Out} (h : s.progress o = some t) : o = .next t := by
  unfold State.progress at h
  split at h
  · split at h <;> cases h
    rfl
  · cases h

theorem State.issueTurn_memoryOk {s : State} (hs : s.MemoryOk) (core slot : Nat) : OutMemoryOk (s.issueTurn core slot) := by
  unfold State.issueTurn
  split
  · rename_i t h
    obtain ⟨k, -, hk⟩ := List.exists_of_findSome?_eq_some h
    exact outMemoryOk_next.2 (State.issueAt_memoryOk hs core k t (State.next_of_progress hk))
  · exact State.issueAt_memoryOk hs core slot

/-- Every move of the agenda keeps memory canonical. -/
theorem State.act_memoryOk {s : State} (hs : s.MemoryOk) (a : Act) : OutMemoryOk (s.act a) := by
  cases a with
  | issue core slot => exact State.issueTurn_memoryOk hs core slot
  | event i =>
    simp only [State.act]
    split
    · simpa using hs
    · exact exec_memoryOk hs i
  | error g => simp [State.act, State.MemoryOk, hs]
  | keep core slot thread gran => simp [State.act, State.MemoryOk, hs]
  | keepSpad core slot thread gran => simp [State.act, State.MemoryOk, hs]
  | collapse vd => simp [State.act, State.MemoryOk, hs]
  | lapse => simp [State.act, State.MemoryOk, hs]

/-- The first of some moves that changes something leaves memory canonical, where every one of them does. -/
theorem State.firstOf_memoryOk {α : Type} {s : State} {live : α → Bool} {run : α → Out} (hr : ∀ a, OutMemoryOk (run a))
    {l : List α} {r : State × List α} (h : s.firstOf live run l = some r) :
    r.1.MemoryOk := by
  induction l with
  | nil => cases h
  | cons a l ih =>
    unfold State.firstOf at h
    split at h
    · rename_i t ht
      cases h
      exact hr a t (State.next_of_progress (Option.ite_none_right_eq_some.1 ht).2)
    · exact ih h

theorem State.nextOf_memoryOk {s t : State} (hs : s.MemoryOk) {l : List Act} (h : s.nextOf l = some t) : t.MemoryOk := by
  obtain ⟨r, hr, rfl⟩ := Option.map_eq_some_iff.1 h
  exact State.firstOf_memoryOk (State.act_memoryOk hs) hr

theorem orElse_eq_some {α : Type} {o : Option α} {f : Unit → Option α} {a : α} (h : o.orElse f = some a) :
    o = some a ∨ f () = some a := by
  rw [Option.orElse_eq_or, Option.or_eq_some_iff] at h
  exact h.imp_right And.right

theorem State.expire_memoryOk {s t : State} (hs : s.MemoryOk) (h : s.expire = some t) : t.MemoryOk := by
  have fires (l : List Instr) {u : State}
      (hu : (s.firstOf s.timers.contains (fun i => exec i s) l).map (fun r => { r.1 with clock := r.2 }) = some u) : u.MemoryOk := by
    obtain ⟨r, hr, rfl⟩ := Option.map_eq_some_iff.1 hu
    exact State.firstOf_memoryOk (exec_memoryOk hs) hr
  rcases orElse_eq_some h with h | h
  · exact fires _ h
  · exact fires _ h

theorem State.beginRound_memoryOk {s : State} (hs : s.MemoryOk) : s.beginRound.MemoryOk := by
  unfold State.beginRound
  dsimp only
  split
  · rename_i t h
    have ht : t.MemoryOk := by
      rcases orElse_eq_some h with h | h
      · obtain ⟨u, hu, rfl⟩ := Option.map_eq_some_iff.1 (Option.ite_none_right_eq_some.1 h).2
        exact State.expire_memoryOk (t := u) hs hu
      rcases orElse_eq_some h with h | h
      · exact State.nextOf_memoryOk hs h
      · exact State.expire_memoryOk hs h
    exact ht
  · exact hs

theorem State.turn_memoryOk {s : State} (hs : s.MemoryOk) : s.turn.MemoryOk := by
  unfold State.turn
  cases h : s.nextOf s.round with
  | some t => exact State.nextOf_memoryOk hs h
  | none => exact State.beginRound_memoryOk hs

theorem step_memoryOk {s : State} (hs : s.MemoryOk) : OutMemoryOk (step s) := by
  unfold step State.tick
  split
  · exact State.act_memoryOk (by exact hs) _
  · exact outMemoryOk_next.2 (State.turn_memoryOk hs)

/-- Settles O58: the writers of memory keep its form, every other operation leaves memory alone, and a step is made of these. -/
theorem memoryStaysCanonical : Obligations.MemoryStaysCanonical := fun _ t hs h => step_memoryOk hs t h

end Sys2Proof.Machine
end

section
/-!
PROOFS. The special registers and FMT: what `sread` gives, what `swrite` makes of a beam, and the values that `fmt` takes
(R173, R174, R374, R375).
-/
namespace Sys2Proof.Machine

/-! ### Values at keys -/

/-- A key at which values are put reads as one of them. -/
theorem look_putAll_map {α : Type} (m : FMap α) (ks : List Nat) (f : Nat → α) (k : Nat) :
    FMap.look (putAll m (ks.map (fun i => (i, f i)))) k = if k ∈ ks then some (f k) else FMap.look m k := by
  unfold putAll
  induction ks generalizing m with
  | nil => rfl
  | cons i ks ih =>
    rw [List.map_cons, List.foldl_cons, ih, FMap.look_put]
    by_cases hi : k = i
    · subst hi; simp
    · simp [hi]

/-! ### sread (R374) -/

/-- The high half of a register pair. -/
theorem setWidth_high (v : DWord) : (v >>> 32).setWidth 32 = BitVec.ofNat 32 (v.toNat / 4294967296) := by
  apply BitVec.eq_of_toNat_eq; simp [Nat.shiftRight_eq_div_pow]

/-- The number of a team, which `%team` holds, cut to 32 bits once or twice. -/
theorem ofNat_mod_word (n : Nat) : BitVec.ofNat 32 (n % 4294967296) = BitVec.ofNat 32 n := by
  apply BitVec.eq_of_toNat_eq; simp

/-- D receives the words of the special register; only `%cyc` depends on the reading of the counter. -/
theorem spread_special (x : Iss) (cyc : DWord) (l : Nat) {r : Spr} (hr : r ≠ .cyc) :
    spread (x.special cyc l r) = clean (x.specialWords l r) := by
  cases r
  case cyc => contradiction
  case team => simp [spread, Iss.special, clean, Iss.specialWords, ofNat_mod_word]
  case taddr => simp [spread, Iss.special, clean, Iss.specialWords, setWidth_high]
  all_goals simp [spread, Iss.special, clean, Iss.specialWords]

/-- D receives both halves of the reading of `%cyc`. -/
theorem spread_special_cyc (x : Iss) (cyc : DWord) (l : Nat) : spread (x.special cyc l .cyc) = clean (wordsIn 2 cyc.toNat) := by
  simp [spread, Iss.special, clean, wordsIn, setWidth_high, List.range_succ]

section Sread

variable {h : Head} {s : State} {x : Iss} {r : Spr} (hp : s.passes (.sread h) = some x) (hr : x.h.a = .spr r)
include hp hr

/-- `sread` of `%emask` or `%ekind` holds for a prism instruction of the beam in flight (R145). -/
theorem exec_sread_holds (hw : r = .emask ∨ r = .ekind) (hf : s.recordHeld x = true) : exec (.sread h) s = .next s := by
  rw [(passes_gated rfl hp).head] at hr
  rw [show exec (.sread h) s = execSread h s from rfl, execSread, issue_of_passes rfl hp]
  rcases hw with rfl | rfl <;> simp [hr, hf, State.apply]

/-- `sread` of a register other than `%cyc` that does not hold completes with its words. -/
theorem exec_sread_copies (hc : r ≠ .cyc) (hf : r = .emask ∨ r = .ekind → s.recordHeld x = false) :
    exec (.sread h) s = .next (s.apply x (.write (x.each (fun l => x.outWords l (clean (x.specialWords l r)))) s)) := by
  rw [(passes_gated rfl hp).head] at hr
  have hold : ((r == .emask || r == .ekind) && s.recordHeld x) = false := by
    simpa [Bool.and_eq_false_imp] using hf
  rw [show exec (.sread h) s = execSread h s from rfl, execSread, issue_of_passes rfl hp]
  simp [hr, hold, hc, spread_special _ _ _ hc]

/-- `sread` of `%cyc` brings the core's counter up to a free moment and reads it. -/
theorem exec_sread_cycles (hc : r = .cyc) (hl : x.lanes ≠ []) :
    exec (.sread h) s = .next (s.apply x (.write (x.each (fun l => x.outWords l (clean (wordsIn 2
      (s.cycles x.f.core).1.toNat)))) (s.cycles x.f.core).2)) := by
  rw [(passes_gated rfl hp).head] at hr
  subst hc
  rw [show exec (.sread h) s = execSread h s from rfl, execSread, issue_of_passes rfl hp]
  simp [hr, hl, spread_special_cyc]

end Sread

/-- The counter of a core holds the value that `%cyc` has just been read as. -/
theorem State.cycles_cyc (s : State) (core : Nat) : ((s.cycles core).2.core core).cyc = (s.cycles core).1 := by
  simp [State.cycles]

/-- A reading of `%cyc` moves no beam. -/
theorem State.cycles_beam (s : State) (core n slot : Nat) : (s.cycles core).2.beam? n slot = s.beam? n slot := by
  unfold State.cycles State.beam?
  by_cases hn : n = core
  · subst hn
    simp
    rfl
  · exact congrArg (fun c : Core => c.beams.look slot) (State.core_updCore_ne _ _ hn)

/-! ### swrite (R375) -/

theorem withDone_false (w : Word) : withDone w false = w &&& 0xDFFF_FFFF := by
  simp [withDone]

/-- DONE taken over from a value. -/
theorem withDone_getLsbD (w v : Word) : withDone w (v.getLsbD 29) = (w &&& 0xDFFF_FFFF) ||| (v &&& 0x2000_0000) := by
  have hbit : (if v.getLsbD 29 then 1#32 <<< 29 else 0) = v &&& 0x2000_0000 := by
    rw [show (0x2000_0000 : Word) = BitVec.twoPow 32 29 from rfl, BitVec.and_twoPow]
    rfl
  rw [withDone, hbit]
  rfl

/-- What `swrite` makes of a beam, with the value of each executing thread: the lowest thread's is that of the beam's own
registers, and `%ekind` takes the bits of R375 of each. -/
theorem Beam.special_cases (b : Beam) (r : Spr) (v : Nat → Word) {ls : List Nat} {l0 : Nat} (hl : ls.head? = some l0) :
    b.special r (ls.map (fun l => (l, v l))) = match r with
      | .emask => { b with emask := v l0 }
      | .ekind => { b with ekind := putAll b.ekind (ls.map (fun l => (l, v l &&& 0xFF7))) }
      | .tpc => { b with tpc := v l0 &&& 0xFF00_1FFF, tcause := b.tcause &&& 0xDFFF_FFFF }
      | .tcause => { b with tcause := (b.tcause &&& 0xDFFF_FFFF) ||| (v l0 &&& 0x2000_0000) }
      | _ => b := by
  cases r
  case tcause => simp only [Beam.special, ← withDone_getLsbD, List.head?_map, hl, Option.map_some, Option.getD_some]
  all_goals simp [Beam.special, hl, withDone_false, Function.comp_def]

theorem exec_swrite {h : Head} {s : State} {x : Iss} {r : Spr} (hp : s.passes (.swrite h) = some x) (hr : x.h.d = .spr r)
    (hl : x.lanes ≠ []) :
    exec (.swrite h) s = .next (s.apply x (.sent (s.updBeam x.f.core x.f.slot
      (fun b => b.special r (x.lanes.map (fun l => (l, BitVec.ofNat 32 (x.val x.h.a .n32 l)))))))) := by
  rw [(passes_gated rfl hp).head] at hr ⊢
  rw [show exec (.swrite h) s = execSwrite h s from rfl, execSwrite, issue_of_passes rfl hp]
  simp [hr, hl]

/-! ### fmt (R173, R174) -/

section Fmt

variable {h : Head} {s : State} {x : Iss} (hp : s.passes (.fmt h) = some x) (hl : x.lanes ≠ [])
include hp hl

/-- `fmt` with a value that R140 allows sets FMT of the issuing path. -/
theorem exec_fmt_sets (hv : fmtOk (fmtValue x) = true) : exec (.fmt h) s = .next (s.apply x (.sent
    (s.updBeam x.f.core x.f.slot (fun b => { b with flow := b.flow.setRun (fun p => { p with fmt := fmtValue x }) })))) := by
  rw [show exec (.fmt h) s = execFmt h s from rfl, execFmt, issue_of_passes rfl hp]
  simp [hl, hv]

/-- `fmt` with a value that R140 forbids takes the illegal-instruction trap. -/
theorem exec_fmt_traps (hv : fmtOk (fmtValue x) = false) :
    exec (.fmt h) s = .next (s.apply x (.trap { cause := 0x01, reason := 0x04 })) := by
  rw [show exec (.fmt h) s = execFmt h s from rfl, execFmt, issue_of_passes rfl hp]
  simp [hl, hv]

end Fmt

/-- `fmt` reads its immediate, in bits [31:12], or its register. -/
theorem fmtValue_eq (x : Iss) : fmtValue x =
    if x.h.a = .imm then BitVec.ofNat 32 (x.h.imm.toNat * 4096) else (x.f.b.reg x.h.a 0 0).val := by
  unfold fmtValue
  cases x.h.a <;> simp

/-- A word of `fmt` with an immediate that R140 forbids is illegal, by a reason no higher than 0x04. -/
theorem entryReason_fmt (lim : Limits) {h : Head} (hi : h.a = .imm) (hv : fmtOk (BitVec.ofNat 32 (h.imm.toNat * 4096)) = false) :
    ∃ r, entryReason lim .fmt h .none = some r ∧ r.toNat ≤ 4 := by
  unfold entryReason
  by_cases hf : Op.fmt.forms.admits h.uni = true
  · exact ⟨4, by simp [hf, hi, Op.valueOk, hv], by decide⟩
  · exact ⟨3, by simp [hf], by decide⟩

/-- Settles O35: each of the three instructions does at issue what its own part says, and the values that part gives are
those of R173, R374 and R375. -/
theorem specialRegisters : Obligations.SpecialRegisters := by
  refine ⟨fun h s x r hp hr => ⟨exec_sread_holds hp hr, exec_sread_copies hp hr, fun hc hl => ?_⟩, fun h s x r hp hr hl => ?_,
    fun h s x hp hl => ?_, fun lim h => entryReason_fmt lim⟩
  · exact ⟨_, _, exec_sread_cycles hp hr hc hl, (s.cycles x.f.core).1.isLt, by simp [State.cycles_cyc], State.cycles_mem s _,
      State.cycles_beam s _⟩
  · refine ⟨_, exec_swrite hp hr hl, fun l0 hl0 => ?_⟩
    have hb b := Beam.special_cases b r (fun l => BitVec.ofNat 32 (x.val x.h.a .n32 l)) hl0
    cases r
    case ekind =>
      intro _ b
      dsimp only at hb ⊢
      rw [hb b]
      refine ⟨rfl, fun l hm => ?_, fun l hm => ?_⟩ <;> simp [FMap.getD, look_putAll_map, hm]
    all_goals exact hb
  · dsimp only
    rw [← fmtValue_eq]
    refine ⟨fun hv => ?_, exec_fmt_traps hp hl⟩
    simpa [Flow.setRun] using exec_fmt_sets hp hl hv

end Sys2Proof.Machine
end

section
/-!
PROOFS. A wake that waits for its notices, and the state in which it does not leave everything as it was (R335, R336).
-/
namespace Sys2Proof.Machine

/-! ### A wake that waits for a notice (R335, R336) -/

/-- A key changed in place where the change is none of any of its values. -/
theorem FMap.upd_eq_self {α : Type} {m : FMap α} {k : Nat} {f : α → α} (h : ∀ e ∈ m, e.1 = k → f e.2 = e.2) : m.upd k f = m := by
  refine (List.map_congr_left fun e he => ?_).trans (List.map_id m)
  split
  · rename_i hk
    rw [h e he hk]
    rfl
  · rfl

/-- A wake whose collapse is undone leaves nothing to do but to set the count of steps. -/
theorem State.restored_of_undone {s : State} {v : Nat} {d : VDev} (hd : s.vds.look v = some d) (hp : d.power = .waking)
    (h0 : d.stage = 0) : s.restored v = s.updVd v (fun d => { d with stage := 0 }) := by
  simp [State.restored, hd, hp, h0]

/-- A wake that still waits for a notice changes nothing but that count. -/
theorem exec_wakeComplete_waits {s : State} {v : Nat} {d : VDev} (hd : s.vds.look v = some d) (hp : d.power = .waking)
    (h0 : d.stage = 0) (hn : d.notices ≠ []) :
    exec (.wakeComplete v) s = .next (s.updVd v (fun d => { d with stage := 0 })) := by
  rw [show exec (.wakeComplete v) s = execWakeComplete v s from rfl, execWakeComplete, State.restored_of_undone hd hp h0]
  simp [hd, hn]

/-- Where every entry of the virtual device has its collapse undone, as where it has one entry, such a wake changes nothing: the clause of
O46 that fails is true of every state in which `vds` is a map. -/
theorem exec_wakeComplete_waits_eq {s : State} {v : Nat} {d : VDev} (hd : s.vds.look v = some d) (hp : d.power = .waking)
    (hn : d.notices ≠ []) (hv : ∀ e ∈ s.vds, e.1 = v → e.2.stage = 0) : exec (.wakeComplete v) s = .next s := by
  rw [exec_wakeComplete_waits hd hp (hv _ (FMap.mem_of_look hd) rfl) hn]
  have hvds : s.vds.upd v (fun d => { d with stage := 0 }) = s.vds :=
    FMap.upd_eq_self fun e he hk => by rw [← hv e he hk]
  rw [State.updVd, hvds]

/-- A virtual device that wakes, with its collapse undone and a notice on its way. -/
def wakingVd : VDev := { descr := 0, power := .waking, notices := [0] }

/-- A state that lists virtual device 0 twice: the entry that its number finds, and one behind it with a step of a collapse to undo. -/
def listedTwice : State := { State.reset with vds := [(0, wakingVd), (0, { wakingVd with stage := 1 })] }

/-- Refutes O46: the state is plain data, and where `vds` lists a virtual device twice, a wake that waits for its notices sets the count of
steps of the second entry to 0, while the statement has the state stand as it was. -/
theorem not_powerAndCores : ¬ Obligations.PowerAndCores := by
  unfold Obligations.PowerAndCores
  rintro ⟨-, -, -, -, hwake, -⟩
  obtain ⟨-, -, hwaits, -⟩ := hwake listedTwice 0 wakingVd rfl rfl
  have hkept : exec (.wakeComplete 0) listedTwice = .next listedTwice := hwaits rfl (List.cons_ne_nil _ _)
  rw [exec_wakeComplete_waits (d := wakingVd) rfl rfl rfl (List.cons_ne_nil _ _)] at hkept
  injection hkept with hs
  have hstages : [0, 0] = [0, 1] := congrArg (fun t : State => t.vds.map (fun e : Nat × VDev => e.2.stage)) hs
  exact absurd hstages (by decide)

end Sys2Proof.Machine
end

section
/-!
PROOFS. A trap that leaves its beam where it was: one with no handler to go to, in a beam that its launch does not list (R370, R372,
R381).
-/
namespace Sys2Proof.Machine

/-! ### Traps that end no beam (R370, R381) -/

@[simp] theorem State.settleLaunch_cores (s : State) (v l : Nat) : (s.settleLaunch v l).cores = s.cores := by
  unfold State.settleLaunch
  repeat' split
  all_goals simp

/-- A kill ends the live teams that the launch lists: where it lists none, no core changes. -/
theorem State.killTeams_cores_of_no_live {s : State} {v l : Nat} {x : Launch} (hx : s.launch? v l = some x) (hlive : x.live = [])
    (code : Nat) : (s.killTeams v l code).cores = s.cores := by
  simp [State.killTeams, hx, hlive]

/-- An entry in the error queue leaves every launch as it is. -/
@[simp] theorem State.launch_pushErr (s : State) (v : Nat) (e : BitVec 256) (v' l : Nat) :
    (s.pushErr v e).launch? v' l = s.launch? v' l := by
  unfold State.launch? State.pushErr
  dsimp only
  rw [State.updVd_vds, FMap.look_upd]
  cases s.vds.look v' with
  | none => simp
  | some d => by_cases hv : v' = v <;> by_cases hq : d.errq.length < 256 <;> simp [hv, hq]

section NoLive

variable {s : State} {core slot : Nat} {b : Beam} {tm : Team} {x : Launch} (hb : s.beam? core slot = some b)
  (ht : s.teamOf core b = some tm) (hr : b.resp = none) (hx : s.launch? tm.vd tm.launch = some x) (hlive : x.live = [])
include hb ht hr hx hlive

/-- A beam of an ordinary team ends in a trap by the kill of its launch, so it stands where its launch lists no live team. -/
theorem State.endInTrap_beam_of_no_live (sub : Nat) : (s.endInTrap core slot sub).beam? core slot = some b := by
  simp only [State.endInTrap, hb, ht, hr, State.launch_pushErr, hx, hlive, List.length_nil, Nat.zero_sub, if_true]
  rw [State.beam_congr (State.killTeams_cores_of_no_live (by simpa using hx) hlive _), ← hb]
  exact State.beam_congr rfl ..

/-- With no handler loaded such a beam takes the trap, and stands after it with its trap registers written. -/
theorem State.takeTrap_beam_of_no_live {d : VDev} (hd : s.vds.look tm.vd = some d) (hload : d.overlays.look 255 = none) (tr : Trap)
    (pc : Word) (nas : Option Sel) : (s.takeTrap core slot tr pc nas).beam? core slot =
      some { b with tcause := tr.word, tpc := pc, taddr := tr.addr, latch := none } := by
  have hteam : (s.setBeam core slot { b with tcause := tr.word, tpc := pc, taddr := tr.addr, latch := none }).teamOf core
      { b with tcause := tr.word, tpc := pc, taddr := tr.addr, latch := none } = some tm := by
    rw [← ht]
    simp [State.teamOf, State.setBeam, hr, Core.teamIn]
  simp only [State.takeTrap, hb, hteam, State.setBeam_vds, hd, hload, Option.isSome_none, Bool.not_false, Bool.or_true, if_true]
  exact State.endInTrap_beam_of_no_live (State.beam_setBeam_self ..) hteam hr hx hlive 0

end NoLive

/-- `trap` with a thread to execute it completes, and then traps with its number in `%taddr` (R372). -/
theorem exec_trap_traps {h : Head} {s : State} {x : Iss} (hp : s.passes (.trap h) = some x) (hl : x.lanes ≠ []) :
    exec (.trap h) s = .next ((s.issued x false).takeTrap x.f.core x.f.slot { cause := 0x10, addr := x.number, done := true } x.pc
      (some x.sel)) := by
  rw [show exec (.trap h) s = execTrap h s from rfl, execTrap, issue_of_passes rfl hp]
  simp [hl, State.apply]

/-! ### A beam that its launch does not list -/

/-- The software trap of number 9, in sequence. -/
def softTrap : Head :=
  { nas := .seq, gneg := false, gidx := 7, uni := true, wa := true, wb := true, wc := true, reuse := false, yld := false
    d := .none, a := .imm, b := .none, c := .none, imm := 9 }

/-- A package whose beam comes to issue with no handler loaded, where the launch of its team lists no team. -/
def strayTeam : State :=
  { State.reset.withWord 0 with cur := some (0, 0) }.updLaunch 0 0 (fun l => { l with teams := [] })

/-- The software trap as that beam issues it. -/
def strayTrap : Iss := (strayTeam.passes (.trap softTrap)).get rfl

/-- Refutes O51: that handler mode is as before does not say that no trap was taken. The state is plain data, and where the launch of a team
does not list it as resident, which O53 asks for where it speaks of such traps, a beam outside handler mode with no handler loaded takes the
trap of `trap` and is not ended: it stands, outside handler mode still, with the number of the trap in `%taddr`. -/
theorem not_registerFrames : ¬ Obligations.RegisterFrames := by
  unfold Obligations.RegisterFrames
  rintro ⟨-, frames⟩
  have hp : strayTeam.passes (.trap softTrap) = some strayTrap := (Option.some_get _).symm
  have hstands := State.takeTrap_beam_of_no_live (s := strayTeam.issued strayTrap false) (core := 0) (slot := 0) rfl rfl rfl rfl rfl rfl
    rfl { cause := 0x10, addr := strayTrap.number, done := true } strayTrap.pc (some strayTrap.sel)
  obtain ⟨-, -, -, -, -, -, -, -, -, htaddr, -⟩ :=
    frames (.trap softTrap) .trap softTrap .none strayTeam _ strayTrap _ rfl (by decide) hp (by decide)
      (exec_trap_traps hp (by decide)) hstands rfl
  exact absurd htaddr (by decide)

end Sys2Proof.Machine
end
